-- ==== Sys2Proof/Word.lean ====
section
/-! DEFINITION. The word types of the block (00_scope.md R7): bytes, byte sequences, 16-bit values. -/

namespace Sys2Proof

/-- `Byte`: an unsigned 8-bit value; bit 0 is the least significant bit (R6, R7). -/
abbrev Byte := BitVec 8

/-- `Bytes`: a finite sequence of bytes; offsets start at 0 (R6, R7). -/
abbrev Bytes := List Byte

/-- `U16`: 0 to 65535 (R7). -/
abbrev U16 := BitVec 16

end Sys2Proof
end

