-- ==== Sys2Proof/Config.lean ====
section
/-! DEFINITION. What the spec leaves open: the OPEN parameters of 00_scope.md R5, the environment's choices at
the transport boundary (20_memory.md R31, R32), and the free values that stand for them where nothing is given.
The parameters whose value the spec fixes are in Machine/Parameters.lean. -/

namespace Sys2Proof.Config

/-- The device register numbers that 00_scope.md R5 leaves OPEN (D14), and `VERIFY_DEFAULT` (U17).
"OPEN means the source does not give it and the model takes it as an argument": State holds one such record,
so a statement about every state is a statement about every value. -/
structure Params where
  /-- `REG_ACK_POLICY`, the device register `set_acknowledge_policy` writes. -/
  regAckPolicy : Byte
  /-- `REG_CONTROL_MODE`, the device register `set_control_mode` writes. -/
  regControlMode : Byte
  /-- `REG_TORQUE`, the device register `set_torque` writes. -/
  regTorque : Byte
  /-- `REG_STATUS_ERROR`, the first of the two adjacent status registers `clear_status` zeroes (D15). -/
  regStatusError : Byte
  /-- `VERIFY_DEFAULT`: whether a session read checks the checksums of its response. -/
  verifyDefault : Bool
  deriving DecidableEq, Repr

/-- The three outcomes of one transport call (R22; R32 for a read). -/
inductive CallEnd where
  /-- the call returns what it was asked for -/
  | returns
  /-- `TransportError` -/
  | fails
  /-- the call never returns -/
  | never
  deriving DecidableEq, Repr, Inhabited

/-- The environment's choice for one `TxWrite`. R31 gives a write "two outcomes" and says that whether it can block "is not
said"; R22 lists "never returning" among the outcomes of each transport call, so the model admits it. DESIGN CHOICE, safe:
log 22. -/
inductive TxChoice where
  /-- every byte is appended to TX -/
  | success
  /-- `TransportError`; the first `sent` bytes of the frame (all of it, if it is shorter) went out -/
  | failure (sent : Nat)
  /-- the write never returns; the first `sent` bytes of the frame (all of it, if it is shorter) went out -/
  | never (sent : Nat)
  deriving DecidableEq, Repr, Inhabited

/-- The environment's choice for one `RxRead(n)`: how it ends, and how many bytes are gone from the front of RX
where it does not return them (U2; after a read that never returns, 95_test_vectors.md V-Q26 says "not defined"). -/
structure RxChoice where
  ending : CallEnd
  taken : Nat
  deriving DecidableEq, Repr, Inhabited

/-- Free value: the outcome of the k-th `TxWrite` where State plans none (R22, D17). -/
opaque txChoice : Nat → TxChoice

/-- Free value: the outcome of the k-th `RxRead` where State plans none (R22, D17). -/
opaque rxChoice : Nat → RxChoice

/-- Free value: what RX holds when a session is created (R23 "unspecified", U3). -/
opaque rxAtCreation : Bytes

/-- Free value: the OPEN parameter `REG_ACK_POLICY` (R5, D14). -/
opaque regAckPolicy : Byte

/-- Free value: the OPEN parameter `REG_CONTROL_MODE` (R5, D14). -/
opaque regControlMode : Byte

/-- Free value: the OPEN parameter `REG_TORQUE` (R5, D14). -/
opaque regTorque : Byte

/-- Free value: the OPEN parameter `REG_STATUS_ERROR` (R5, D14). -/
opaque regStatusError : Byte

end Sys2Proof.Config
end

