-- ==== Sys2Proof/Machine/Parameters.lean ====
section
/-! DEFINITION. The parameters that 00_scope.md R5 fixes (column "value"), by the spec's names. -/

namespace Sys2Proof.Config

/-- One byte of `HEADER`, the 2-byte frame marker 0xFF 0xFF. -/
def headerByte : Byte := 0xFF

/-- `OVERHEAD`: frame bytes that are not payload. -/
def overhead : Nat := 7

/-- `MAX_PAYLOAD`: the largest payload length, so that packet_size is at most 255. -/
def maxPayload : Nat := 248

/-- `CS_MASK`: the mask applied to both checksums. -/
def csMask : Byte := 0xFE

/-- `CMD_MIN` and `CMD_MAX`: the closed command-code range. -/
def cmdMin : Byte := 0x01

@[inherit_doc cmdMin]
def cmdMax : Byte := 0x09

/-- `ID_BROADCAST`: the broadcast address. Every id up to it is legal in a session operation (R65, D5). -/
def idBroadcast : Byte := 254

/-- `ID_MAX_NORMAL`: the largest normal address. -/
def idMaxNormal : Byte := 253

/-- `REG_LED`: the device register `set_led` writes. -/
def regLed : Byte := 53

/-- `REG_ABS_POS`: the device register `get_absolute_angle` reads. -/
def regAbsPos : Byte := 60

/-- `REG_CAL_POS`: the device register `get_calibrated_angle` reads. -/
def regCalPos : Byte := 58

/-- `ANGLE_SCALE`: exactly 325 millidegrees per unit. -/
def angleScale : BitVec 25 := 325

/-- `CAL_MASK`: the 10-bit mask of the calibrated position (C1). UNVERIFIED of a real device (U4), unsafe: log 18. -/
def calMask : U16 := 0x03FF

/-- The largest `target` of a motion entry (R96). -/
def maxTarget : Nat := 1023

/-- `STAT_RESP_LEN`: bytes read for a STAT response. -/
def statRespLen : Nat := 9

/-- `RAM_RESP_OVERHEAD`: a RAM_READ response of n data bytes is this many bytes and n more. -/
def ramRespOverhead : Nat := 11

/-- Data bytes that the angle operations ask for. -/
def angleDataLen : Byte := 2

/-- `TIME_TICK` in tenths of a millisecond: 11.2 ms; data only, no rule depends on it (R194). -/
def timeTickTenthsMs : Nat := 112

/-- `VERIFY_DEFAULT`: verification of responses is opt-in. -/
def verifyDefault : Bool := false

/-- The parameters of a model right after reset: the OPEN register numbers are free values (log 3). -/
def openParams : Params where
  regAckPolicy := regAckPolicy
  regControlMode := regControlMode
  regTorque := regTorque
  regStatusError := regStatusError
  verifyDefault := verifyDefault

end Sys2Proof.Config
end

