-- ==== Sys2Proof/Machine/Checksum.lean ====
section
/-! DEFINITION. The checksum generator CSG's function (40_checksum.md R80, R81, R83, R86) and the frame bytes around
it (30_encoding.md R50). -/

namespace Sys2Proof

/-- `fold(p)`: the XOR of all bytes; a left fold from 0 (R6, R83). -/
def fold (p : Bytes) : Byte := p.foldl (· ^^^ ·) 0

/-- checksum1 (R80): the XOR-fold of packet_size, motor_id, command and payload, masked with `CS_MASK`. -/
def checksum1 (packetSize motorId command : Byte) (payload : Bytes) : Byte :=
  (packetSize ^^^ motorId ^^^ command ^^^ fold payload) &&& Config.csMask

/-- checksum2 (R81): the complement of the masked checksum1, masked. -/
def checksum2 (c1 : Byte) : Byte := ~~~c1 &&& Config.csMask

/-- `csum` (R86); total on all operand values. -/
def csum (packetSize motorId command : Byte) (payload : Bytes) : Byte × Byte :=
  let c1 := checksum1 packetSize motorId command payload
  (c1, checksum2 c1)

/-- packet_size as the byte it is written as (R53). -/
def packetSizeOf (payload : Bytes) : Byte := BitVec.ofNat 8 (Config.overhead + payload.length)

/-- The bytes of a frame in offset order (R50, R33): header, size, id, command, checksums, payload. -/
def frameBytes (motorId command : Byte) (payload : Bytes) : Bytes :=
  let cs := csum (packetSizeOf payload) motorId command payload
  [Config.headerByte, Config.headerByte, packetSizeOf payload, motorId, command, cs.1, cs.2] ++ payload

end Sys2Proof
end

