-- ==== Sys2Proof/Syntax.lean ====
section
/-! DEFINITION. The instructions: one constructor for each of the 41 rows of spec/opcode_table.json, with the
operands of the row's rule; the enumerations of 00_scope.md R7; the entries of a host script; and the reasons
bytes are no entry. -/

namespace Sys2Proof

/-- `Colour` (R7, R60). -/
inductive Colour where
  | green | blue | red
  deriving DecidableEq, Repr

/-- `Mode` (R7, R61): of a motion entry and of `set_control_mode`. -/
inductive Mode where
  | position | velocity
  deriving DecidableEq, Repr

/-- Torque modes in the order of R62. -/
inductive TorqueMode where
  | free | brake | on
  deriving DecidableEq, Repr

/-- The nine wire commands in the order of R52. -/
inductive Command where
  | eepWrite | eepRead | ramWrite | ramRead | iJog | sJog | stat | rollback | reboot
  deriving DecidableEq, Repr

/-- `MotionCommand`, an S_JOG entry (R96). `led` and `mode` are passed as bytes, as R97 and D30 allow: a byte that
is no code is refused with `InvalidArgument`. -/
structure MotionCommand where
  motorId : Byte
  target : U16
  timeTicks : Byte
  led : Byte
  mode : Byte
  deriving DecidableEq, Repr

/-- The part of an S_JOG entry that its four bytes of the payload carry (R58): no time (D29). -/
structure JogEntry where
  target : U16
  led : Byte
  mode : Byte
  motorId : Byte
  deriving DecidableEq, Repr

/-- One constructor per row of spec/opcode_table.json. -/
inductive Instr where
  -- FRAME rows: the wire commands (R52), framed by R90
  | eepWrite (motorId : Byte) (payload : Bytes)
  | eepRead (motorId : Byte) (payload : Bytes)
  | ramWrite (motorId : Byte) (payload : Bytes)
  | ramRead (motorId : Byte) (payload : Bytes)
  | iJog (motorId : Byte) (payload : Bytes)
  | sJog (motorId : Byte) (payload : Bytes)
  | stat (motorId : Byte) (payload : Bytes)
  | rollback (motorId : Byte) (payload : Bytes)
  | reboot (motorId : Byte) (payload : Bytes)
  -- FRAME_FIXED rows: the frames the session operations emit (R131 to R139)
  | ramWriteSetLed (motorId colour : Byte)
  | ramWriteSetAcknowledgePolicy (motorId policy : Byte)
  | ramWriteSetControlMode (motorId mode : Byte)
  | ramWriteSetTorque (motorId mode : Byte)
  | ramReadGetAbsoluteAngle (motorId : Byte)
  | ramReadGetCalibratedAngle (motorId : Byte)
  | statGetStatus (motorId : Byte)
  | ramWriteClearStatus (motorId : Byte)
  | sJogRunMotion (timeTicks : Byte) (entries : List JogEntry)
  -- RESP rows: the two response layouts (R56, R57)
  | statResponse (motorId command checksum1 checksum2 statusError statusDetail : Byte)
  | ramReadResponse2 (motorId command checksum1 checksum2 byte7 byte8 dataLow dataHigh statusError statusDetail : Byte)
  -- HOSTOP rows: the host operations (R70, R71)
  | csum (packetSize motorId command : Byte) (payload : Bytes)
  | encodeRequest (motorId command : Byte) (payload : Bytes)
  | marshalRamWrite (register : Byte) (data : Bytes)
  | marshalRamRead (register length : Byte)
  | marshalSjog (entries : List MotionCommand) (count : Nat)
  | decodeHeader (bytes : Bytes)
  | decodeResponse (bytes : Bytes) (expectedPayloadLen : Byte) (verify : Bool)
  | verifyChecksum (bytes : Bytes)
  | decodeAbsAngle (bytes : Bytes)
  | decodeCalAngle (bytes : Bytes)
  | decodeStatus (bytes : Bytes)
  | statusFlags (statusError statusDetail : Byte)
  | setLed (motorId colour : Byte)
  | setAcknowledgePolicy (motorId policy : Byte)
  | setControlMode (motorId mode : Byte)
  | setTorque (motorId mode : Byte)
  | getAbsoluteAngle (motorId : Byte)
  | getCalibratedAngle (motorId : Byte)
  | getStatus (motorId : Byte)
  | clearStatus (motorId : Byte)
  | runMotion (entries : List MotionCommand) (count : Nat)
  deriving DecidableEq, Repr

/-- One entry of a host script, in the form its bytes have. The rows of the opcode table overlap as bit patterns
(a `set_led` frame is also a RAM_WRITE frame, and a 9-byte request also fits the STAT response), so an entry says
which format its bytes are of. DESIGN CHOICE, safe: log 5. -/
inductive Entry where
  /-- a host operation: its OPSEL byte, then its operands -/
  | op (bytes : Bytes)
  /-- a frame of one of the nine wire commands -/
  | frame (bytes : Bytes)
  /-- the frame that the session operation with this OPSEL emits -/
  | emit (opsel : Byte) (bytes : Bytes)
  /-- a response frame, as the decoder takes it -/
  | resp (bytes : Bytes)
  deriving DecidableEq, Repr

/-- Why bytes are no entry of the script. -/
inductive DecodeError where
  /-- no OPSEL byte -/
  | empty
  /-- an OPSEL value outside R70's table -/
  | unknownOpsel
  /-- an operand record shorter than the operation's operands -/
  | truncatedOperands
  /-- bytes after the last operand -/
  | trailingBytes
  /-- a `verify` byte other than 0 and 1 -/
  | badVerifyBit
  /-- the motion entries are not a whole number of records -/
  | badMotionRecord
  /-- not a frame: no whole prefix, or the header is not FF FF -/
  | noHeader
  /-- packet_size differs from the number of bytes -/
  | badSize
  /-- checksums that R80 and R81 do not give -/
  | badChecksum
  /-- a command code outside 0x01 to 0x09 -/
  | unknownCommand
  /-- a frame that is not of the row its entry names -/
  | notThatRow
  deriving DecidableEq, Repr

end Sys2Proof
end

