-- ==== Sys2Proof/Machine/Operands.lean ====
section
/-! DEFINITION. Operand forms: the codes of the enumerations (30_encoding.md R52, R60 to R62), the operand checks of
60_exceptions.md R151, the SET byte (R59), the two byte orders (20_memory.md R34, R35) and reading a byte by offset. -/

namespace Sys2Proof

/-- Colour codes (R60): green 0x01, blue 0x02, red 0x04. -/
def Colour.code : Colour → Byte
  | .green => 0x01
  | .blue => 0x02
  | .red => 0x04

/-- The colour a byte stands for; "No other value is a colour" (R60). -/
def Colour.ofByte? (b : Byte) : Option Colour :=
  if b = 0x01 then some .green
  else if b = 0x02 then some .blue
  else if b = 0x04 then some .red
  else none

/-- Mode codes (R61): position 0, velocity 1. -/
def Mode.code : Mode → Byte
  | .position => 0x00
  | .velocity => 0x01

/-- The mode a byte stands for. -/
def Mode.ofByte? (b : Byte) : Option Mode :=
  if b = 0x00 then some .position
  else if b = 0x01 then some .velocity
  else none

/-- The wire code of a torque mode (R62): free 0x00, brake 0x40, on 0x60. -/
def TorqueMode.code : TorqueMode → Byte
  | .free => 0x00
  | .brake => 0x40
  | .on => 0x60

/-- The index of a torque mode, which is the operand of `set_torque` (R134, D30). -/
def TorqueMode.index : TorqueMode → Byte
  | .free => 0
  | .brake => 1
  | .on => 2

/-- The torque mode of an operand byte: "the operand is the index 0, 1 or 2, never the wire code" (R134). -/
def TorqueMode.ofIndex? (b : Byte) : Option TorqueMode :=
  if b = 0 then some .free
  else if b = 1 then some .brake
  else if b = 2 then some .on
  else none

/-- The torque mode whose wire code a byte is (R62). -/
def TorqueMode.ofCode? (b : Byte) : Option TorqueMode :=
  if b = 0x00 then some .free
  else if b = 0x40 then some .brake
  else if b = 0x60 then some .on
  else none

/-- Command codes in the order of R52's list (D3; log 17). -/
def Command.code : Command → Byte
  | .eepWrite => 0x01
  | .eepRead => 0x02
  | .ramWrite => 0x03
  | .ramRead => 0x04
  | .iJog => 0x05
  | .sJog => 0x06
  | .stat => 0x07
  | .rollback => 0x08
  | .reboot => 0x09

/-- A session operation takes motor_id 0 to 254 (R151, D5). -/
def motorIdOk (motorId : Byte) : Bool := decide (motorId.toNat ≤ Config.idBroadcast.toNat)

/-- `policy` is 0, 1 or 2 (R132). -/
def policyOk (policy : Byte) : Bool := decide (policy.toNat ≤ 2)

/-- `target` is 0 to 1023 (R96, D10). -/
def targetOk (target : U16) : Bool := decide (target.toNat ≤ Config.maxTarget)

/-- What R97 asks of an entry among the first `count`. -/
def MotionCommand.ok (e : MotionCommand) : Bool :=
  motorIdOk e.motorId && targetOk e.target && (Colour.ofByte? e.led).isSome && (Mode.ofByte? e.mode).isSome

/-- The SET byte `(mode << 1) + (led << 2)` of the two codes (R59). -/
def setByte (mode led : Byte) : Byte := (mode <<< 1) + (led <<< 2)

/-- Bits 15:8 of a target, "position_high" (R58). -/
def highByte (v : U16) : Byte := (v >>> 8).setWidth 8

/-- Bits 7:0 of a target, "position_low" (R58). -/
def lowByte (v : U16) : Byte := v.setWidth 8

/-- The 16-bit value of its high and low byte. -/
def wordOf (high low : Byte) : U16 := (high.setWidth 16 <<< 8) ||| low.setWidth 16

/-- `raw = zext_16(low) | (zext_16(high) << 8)`, the lower offset first (R34, R63). -/
def rawOf (low high : Byte) : U16 := low.setWidth 16 ||| (high.setWidth 16 <<< 8)

/-- The byte of a sequence at an offset. Every use follows a check that the offset is in range (R111), so the
value past the end is never a result. -/
def byteAt (b : Bytes) (offset : Nat) : Byte := (b[offset]?).getD 0

/-- A MotionCommand of the time and the four-byte part of an entry. -/
def JogEntry.withTime (e : JogEntry) (timeTicks : Byte) : MotionCommand where
  motorId := e.motorId
  target := e.target
  timeTicks := timeTicks
  led := e.led
  mode := e.mode

/-- The four-byte part of a MotionCommand (R58). -/
def MotionCommand.jog (e : MotionCommand) : JogEntry where
  target := e.target
  led := e.led
  mode := e.mode
  motorId := e.motorId

/-- The four payload bytes of an S_JOG entry (R58, R97). -/
def JogEntry.bytes (e : JogEntry) : Bytes :=
  [highByte e.target, lowByte e.target, setByte e.mode e.led, e.motorId]

end Sys2Proof
end

