-- ==== Sys2Proof/WellFormed.lean ====
section
/-! DEFINITION. The instructions the encoder can write down: operands within what their row's format carries.
An instruction outside it still has a meaning (the errors of 60_exceptions.md R151 and R152). -/

namespace Sys2Proof

/-- A payload that fits a frame (R53: packet_size is at most 255). -/
def payloadFits (payload : Bytes) : Bool := decide (payload.length ≤ Config.maxPayload)

/-- The largest count the count field of an operation record carries (two bytes; DESIGN CHOICE, safe: log 14). -/
def countFits (count : Nat) : Bool := decide (count < 65536)

/-- The entries an S_JOG frame of `run_motion` carries: 1 to 61, each within R97's ranges. -/
def jogEntriesOk (entries : List JogEntry) : Bool :=
  decide (1 ≤ entries.length ∧ entries.length ≤ 61) && entries.all fun e => (e.withTime 0).ok

/-- Well-formed instructions. -/
def WellFormed (i : Instr) : Bool :=
  match i with
  | .eepWrite _ payload => payloadFits payload
  | .eepRead _ payload => payloadFits payload
  | .ramWrite _ payload => payloadFits payload
  | .ramRead _ payload => payloadFits payload
  | .iJog _ payload => payloadFits payload
  | .sJog _ payload => payloadFits payload
  | .stat _ payload => payloadFits payload
  | .rollback _ payload => payloadFits payload
  | .reboot _ payload => payloadFits payload
  | .ramWriteSetLed motorId colour => motorIdOk motorId && (Colour.ofByte? colour).isSome
  | .ramWriteSetAcknowledgePolicy motorId policy => motorIdOk motorId && policyOk policy
  | .ramWriteSetControlMode motorId mode => motorIdOk motorId && (Mode.ofByte? mode).isSome
  | .ramWriteSetTorque motorId mode => motorIdOk motorId && (TorqueMode.ofIndex? mode).isSome
  | .ramReadGetAbsoluteAngle motorId => motorIdOk motorId
  | .ramReadGetCalibratedAngle motorId => motorIdOk motorId
  | .statGetStatus motorId => motorIdOk motorId
  | .ramWriteClearStatus motorId => motorIdOk motorId
  | .sJogRunMotion _ entries => jogEntriesOk entries
  | .statResponse _ _ _ _ _ _ => true
  | .ramReadResponse2 _ _ _ _ _ _ _ _ _ _ => true
  | .csum _ _ _ _ => true
  | .encodeRequest _ _ _ => true
  | .marshalRamWrite _ _ => true
  | .marshalRamRead _ _ => true
  | .marshalSjog _ count => countFits count
  | .decodeHeader _ => true
  | .decodeResponse _ _ _ => true
  | .verifyChecksum _ => true
  | .decodeAbsAngle _ => true
  | .decodeCalAngle _ => true
  | .decodeStatus _ => true
  | .statusFlags _ _ => true
  | .setLed _ _ => true
  | .setAcknowledgePolicy _ _ => true
  | .setControlMode _ _ => true
  | .setTorque _ _ => true
  | .getAbsoluteAngle _ => true
  | .getCalibratedAngle _ => true
  | .getStatus _ => true
  | .clearStatus _ => true
  | .runMotion _ count => countFits count

end Sys2Proof
end

