-- ==== Sys2Proof/Decode.lean ====
section
/-! DEFINITION. The decoder, total on any entry and rejecting by name, and after it the encoder. A FRAME, FRAME_FIXED
or RESP row's word is the frame itself (30_encoding.md R50, R54 to R59, R73); a HOSTOP row's word is its OPSEL byte
(R70), after which its operands stand one after the other (the operand record is the model's own: log 5). -/

namespace Sys2Proof

/-- What the decoder answers. -/
abbrev Decoded := Except DecodeError Instr

/-- Take the next operand byte. -/
def takeByte (b : Bytes) (k : Byte → Bytes → Decoded) : Decoded :=
  match b with
  | x :: rest => k x rest
  | [] => .error .truncatedOperands

/-- No operand is left. -/
def noMore (b : Bytes) (i : Instr) : Decoded :=
  match b with
  | [] => .ok i
  | _ :: _ => .error .trailingBytes

/-- Motion entries of an operation record: motor_id, target high, target low, time_ticks, led, mode each. -/
def motionRecords : Bytes → Option (List MotionCommand)
  | [] => some []
  | motorId :: high :: low :: timeTicks :: led :: mode :: rest =>
    (motionRecords rest).map fun es => ⟨motorId, wordOf high low, timeTicks, led, mode⟩ :: es
  | _ => none

/-- The motion entries that end an operation record. -/
def takeMotion (b : Bytes) (k : List MotionCommand → Instr) : Decoded :=
  match motionRecords b with
  | some es => .ok (k es)
  | none => .error .badMotionRecord

/-- The count field of an operation record, high byte first. -/
def countOf (high low : Byte) : Nat := (wordOf high low).toNat

/-- The operands of the operation an OPSEL value selects (R70, R71). Every value outside the table is refused. -/
def decodeOperands (opsel : Byte) (b : Bytes) : Decoded :=
  match opsel.toNat with
  | 0x00 => takeByte b fun size b => takeByte b fun id b => takeByte b fun cmd p => .ok (.csum size id cmd p)
  | 0x01 => takeByte b fun id b => takeByte b fun cmd p => .ok (.encodeRequest id cmd p)
  | 0x02 => takeByte b fun reg data => .ok (.marshalRamWrite reg data)
  | 0x03 => takeByte b fun reg b => takeByte b fun len b => noMore b (.marshalRamRead reg len)
  | 0x04 => takeByte b fun hi b => takeByte b fun lo b => takeMotion b (.marshalSjog · (countOf hi lo))
  | 0x08 => .ok (.decodeHeader b)
  | 0x09 => takeByte b fun epl b => takeByte b fun v b =>
      if v = 0 then .ok (.decodeResponse b epl false)
      else if v = 1 then .ok (.decodeResponse b epl true)
      else .error .badVerifyBit
  | 0x0A => .ok (.verifyChecksum b)
  | 0x0B => .ok (.decodeAbsAngle b)
  | 0x0C => .ok (.decodeCalAngle b)
  | 0x0D => .ok (.decodeStatus b)
  | 0x0E => takeByte b fun se b => takeByte b fun sd b => noMore b (.statusFlags se sd)
  | 0x10 => takeByte b fun id b => takeByte b fun c b => noMore b (.setLed id c)
  | 0x11 => takeByte b fun id b => takeByte b fun v b => noMore b (.setAcknowledgePolicy id v)
  | 0x12 => takeByte b fun id b => takeByte b fun m b => noMore b (.setControlMode id m)
  | 0x13 => takeByte b fun id b => takeByte b fun m b => noMore b (.setTorque id m)
  | 0x14 => takeByte b fun id b => noMore b (.getAbsoluteAngle id)
  | 0x15 => takeByte b fun id b => noMore b (.getCalibratedAngle id)
  | 0x16 => takeByte b fun id b => noMore b (.getStatus id)
  | 0x17 => takeByte b fun id b => noMore b (.clearStatus id)
  | 0x18 => takeByte b fun hi b => takeByte b fun lo b => takeMotion b (.runMotion · (countOf hi lo))
  | _ => .error .unknownOpsel

/-- A host operation's record: its OPSEL byte and its operands. -/
def decodeOp : Bytes → Decoded
  | [] => .error .empty
  | opsel :: b => decodeOperands opsel b

/-- A request frame of the framer (R50, R53, R80, R81): motor_id, command and payload of bytes whose header, size and
checksums are a frame's. A frame that breaks a constraint of its row is refused (DEDUCED, safe: log 15). -/
def requestOf : Bytes → Except DecodeError (Byte × Byte × Bytes)
  | h0 :: h1 :: size :: id :: cmd :: c1 :: c2 :: p =>
    if h0 ≠ Config.headerByte ∨ h1 ≠ Config.headerByte then .error .noHeader
    else if size.toNat ≠ Config.overhead + p.length then .error .badSize
    else if (c1, c2) ≠ csum size id cmd p then .error .badChecksum
    else .ok (id, cmd, p)
  | _ => .error .noHeader

/-- The wire command with a code (R52). -/
def frameRow (id cmd : Byte) (p : Bytes) : Decoded :=
  match cmd.toNat with
  | 0x01 => .ok (.eepWrite id p)
  | 0x02 => .ok (.eepRead id p)
  | 0x03 => .ok (.ramWrite id p)
  | 0x04 => .ok (.ramRead id p)
  | 0x05 => .ok (.iJog id p)
  | 0x06 => .ok (.sJog id p)
  | 0x07 => .ok (.stat id p)
  | 0x08 => .ok (.rollback id p)
  | 0x09 => .ok (.reboot id p)
  | _ => .error .unknownCommand

/-- A FRAME row's frame. -/
def decodeFrame (b : Bytes) : Decoded :=
  match requestOf b with
  | .error e => .error e
  | .ok (id, cmd, p) => frameRow id cmd p

/-- Mode and colour code of a SET byte (R59): bit 1 the mode, bits 4:2 the colour code. -/
def modeOfSet (set : Byte) : Byte := (set >>> 1) &&& 0x01

@[inherit_doc modeOfSet]
def ledOfSet (set : Byte) : Byte := set >>> 2

/-- The entries of an S_JOG payload after its time byte (R58). -/
def jogRecords : Bytes → Option (List JogEntry)
  | [] => some []
  | high :: low :: set :: motorId :: rest =>
    if setByte (modeOfSet set) (ledOfSet set) = set then
      (jogRecords rest).map fun es => ⟨wordOf high low, ledOfSet set, modeOfSet set, motorId⟩ :: es
    else none
  | _ => none

/-- The S_JOG frame of `run_motion`: its address is the first entry's (R98). -/
def jogRow (id : Byte) (p : Bytes) : Option Instr :=
  match p with
  | timeTicks :: rest =>
    match jogRecords rest with
    | some (e :: es) =>
      if e.motorId = id then some (.sJogRunMotion timeTicks (e :: es)) else none
    | _ => none
  | [] => none

/-- A RAM_WRITE of one data byte to one register: the data byte (R54). -/
def oneByteWrite (register cmd : Byte) (payload : Bytes) : Option Byte :=
  match payload with
  | [reg, len, value] => if cmd = Command.ramWrite.code ∧ reg = register ∧ len = 1 then some value else none
  | _ => none

/-- Whether it is a RAM_READ of two bytes from one register (R55). -/
def isPositionRead (register cmd : Byte) (payload : Bytes) : Bool :=
  match payload with
  | [reg, len] => decide (cmd = Command.ramRead.code ∧ reg = register ∧ len = Config.angleDataLen)
  | _ => false

/-- Whether it is the RAM_WRITE that zeroes both status registers (R138). -/
def isStatusClear (register cmd : Byte) (payload : Bytes) : Bool :=
  match payload with
  | [reg, len, d0, d1] => decide (cmd = Command.ramWrite.code ∧ reg = register ∧ len = 2 ∧ d0 = 0 ∧ d1 = 0)
  | _ => false

/-- The instruction, where the condition holds. -/
def rowIf (condition : Bool) (i : Instr) : Option Instr := if condition then some i else none

/-- The frame that a session operation emits, by the operation's OPSEL, the command and the payload bytes that
spec/opcode_table.json lists for the row. -/
def fixedRow (p : Config.Params) (opsel id cmd : Byte) (payload : Bytes) : Option Instr :=
  match opsel.toNat with
  | 0x10 => (oneByteWrite Config.regLed cmd payload).map (.ramWriteSetLed id ·)
  | 0x11 => (oneByteWrite p.regAckPolicy cmd payload).map (.ramWriteSetAcknowledgePolicy id ·)
  | 0x12 => (oneByteWrite p.regControlMode cmd payload).map (.ramWriteSetControlMode id ·)
  | 0x13 => ((oneByteWrite p.regTorque cmd payload).bind TorqueMode.ofCode?).map fun t => .ramWriteSetTorque id t.index
  | 0x14 => rowIf (isPositionRead Config.regAbsPos cmd payload) (.ramReadGetAbsoluteAngle id)
  | 0x15 => rowIf (isPositionRead Config.regCalPos cmd payload) (.ramReadGetCalibratedAngle id)
  | 0x16 => rowIf (decide (cmd = Command.stat.code ∧ payload = [])) (.statGetStatus id)
  | 0x17 => rowIf (isStatusClear p.regStatusError cmd payload) (.ramWriteClearStatus id)
  | 0x18 => if cmd = Command.sJog.code then jogRow id payload else none
  | _ => none

/-- A FRAME_FIXED row's frame, checked against the operand ranges of the operation that emits it. -/
def decodeEmit (p : Config.Params) (opsel : Byte) (b : Bytes) : Decoded :=
  match requestOf b with
  | .error e => .error e
  | .ok (id, cmd, payload) =>
    match fixedRow p opsel id cmd payload with
    | some i => if WellFormed i then .ok i else .error .notThatRow
    | none => .error .notThatRow

/-- A RESP row's frame (R56, R57, R73): header and size fixed, everything else free. -/
def decodeResp (b : Bytes) : Decoded :=
  match b with
  | [h0, h1, size, id, cmd, c1, c2, se, sd] =>
    if h0 = Config.headerByte ∧ h1 = Config.headerByte then
      if size.toNat = Config.statRespLen then .ok (.statResponse id cmd c1 c2 se sd) else .error .badSize
    else .error .noHeader
  | [h0, h1, size, id, cmd, c1, c2, b7, b8, lo, hi, se, sd] =>
    if h0 = Config.headerByte ∧ h1 = Config.headerByte then
      if size.toNat = Config.ramRespOverhead + Config.angleDataLen.toNat then
        .ok (.ramReadResponse2 id cmd c1 c2 b7 b8 lo hi se sd)
      else .error .badSize
    else .error .noHeader
  | _ => .error .notThatRow

/-- The decoder. The OPEN register numbers are part of three rows' frames, so it takes the parameters. -/
def decode (p : Config.Params) (e : Entry) : Decoded :=
  match e with
  | .op b => decodeOp b
  | .frame b => decodeFrame b
  | .emit opsel b => decodeEmit p opsel b
  | .resp b => decodeResp b

/-- Operand bytes of fixed place after the OPSEL byte, for the words of the opcode table, which give them no bits. -/
def fixedOperandBytes (opsel : Byte) : Nat :=
  match opsel.toNat with
  | 0x00 => 3
  | 0x01 => 2
  | 0x02 => 1
  | 0x03 => 2
  | 0x04 => 2
  | 0x09 => 2
  | 0x0E => 2
  | 0x10 => 2
  | 0x11 => 2
  | 0x12 => 2
  | 0x13 => 2
  | 0x14 => 1
  | 0x15 => 1
  | 0x16 => 1
  | 0x17 => 1
  | 0x18 => 2
  | _ => 0

/-- The byte of `w` whose lowest bit is bit `8 * k`. -/
def byteOfNat (w k : Nat) : Byte := BitVec.ofNat 8 (w / 2 ^ (8 * k))

/-- A prefix of the size and command that a FRAME_FIXED row fixes: the frame that the first such row of the table emits.
Checksums are computed (R53), the payload bytes are those the row lists, and an operand among them is the first value the row
lists for it. -/
def fixedWordEntry (p : Config.Params) (size id cmd : Byte) : Option Entry :=
  match size.toNat, cmd.toNat with
  | 0x0A, 0x03 => some (.emit 0x10 (frameBytes id 0x03 [0x35, 0x01, 0x01]))
  | 0x09, 0x04 => some (.emit 0x14 (frameBytes id 0x04 [0x3C, 0x02]))
  | 0x07, 0x07 => some (.emit 0x16 (frameBytes id 0x07 []))
  | 0x0B, 0x03 => some (.emit 0x17 (frameBytes id 0x03 [p.regStatusError, 0x02, 0x00, 0x00]))
  | _, _ => none

/-- The entry that a pattern of the table stands for: the header of every row's mask (R73), and both checksum bytes 0,
which no frame has (R82), so that nothing the word says is dropped. Size 0, which no frame has either, is a FRAME row's
pattern; the bytes that are "computed, never supplied" (R53) are filled in. Any other word is no pattern. -/
def patternEntry (p : Config.Params) (prefixBytes : Bytes) : Option Entry :=
  match prefixBytes with
  | [h0, h1, size, id, cmd, c1, c2] =>
    if h0 = Config.headerByte ∧ h1 = Config.headerByte ∧ c1 = 0 ∧ c2 = 0 then
      if size = 0 then some (.frame (frameBytes id cmd [])) else fixedWordEntry p size id cmd
    else none
  | _ => none

/-- The entry whose table bits are `w`. A 56-bit word is a frame's prefix, numbered as the table numbers it (bit 55 the
most significant bit of the byte at offset 0, R73). A pattern of the table stands for its row; any other prefix is the start
of a frame whose rest is zeros, read as a FRAME row's where it is one, else as a RESP row's. Any other word is an operation
record. DESIGN CHOICE, safe: log 16. -/
def tableEntry (p : Config.Params) (nbits w : Nat) : Entry :=
  if nbits = 56 then
    let prefixBytes := [byteOfNat w 6, byteOfNat w 5, byteOfNat w 4, byteOfNat w 3, byteOfNat w 2, byteOfNat w 1,
      byteOfNat w 0]
    let b := prefixBytes ++ List.replicate ((byteOfNat w 4).toNat - Config.overhead) 0
    match patternEntry p prefixBytes with
    | some e => e
    | none =>
      match decodeFrame b with
      | .ok _ => .frame b
      | .error _ => .resp b
  else
    let b := (List.range (nbits / 8)).map (byteOfNat w)
    .op (b ++ List.replicate (1 + fixedOperandBytes (byteOfNat w 0) - b.length) 0)

/-- The instruction the decoder reads from a word of the opcode table. -/
def decodeTableWord (nbits w : Nat) : Option Instr :=
  match decode Config.openParams (tableEntry Config.openParams nbits w) with
  | .ok i => some i
  | .error _ => none

/-- The bytes of a motion entry in an operation record. -/
def MotionCommand.record (e : MotionCommand) : Bytes :=
  [e.motorId, highByte e.target, lowByte e.target, e.timeTicks, e.led, e.mode]

/-- The two bytes of a count in an operation record. -/
def countBytes (count : Nat) : Bytes := [highByte (BitVec.ofNat 16 count), lowByte (BitVec.ofNat 16 count)]

/-- The address of an S_JOG frame: the first entry's motor_id (R98). -/
def jogAddress (entries : List JogEntry) : Byte :=
  match entries with
  | e :: _ => e.motorId
  | [] => 0

/-- The encoder: the entry that stands for an instruction, from the same tables. -/
def encode (p : Config.Params) (i : Instr) : Entry :=
  match i with
  | .eepWrite id payload => .frame (frameBytes id 0x01 payload)
  | .eepRead id payload => .frame (frameBytes id 0x02 payload)
  | .ramWrite id payload => .frame (frameBytes id 0x03 payload)
  | .ramRead id payload => .frame (frameBytes id 0x04 payload)
  | .iJog id payload => .frame (frameBytes id 0x05 payload)
  | .sJog id payload => .frame (frameBytes id 0x06 payload)
  | .stat id payload => .frame (frameBytes id 0x07 payload)
  | .rollback id payload => .frame (frameBytes id 0x08 payload)
  | .reboot id payload => .frame (frameBytes id 0x09 payload)
  | .ramWriteSetLed id c => .emit 0x10 (frameBytes id 0x03 [0x35, 0x01, c])
  | .ramWriteSetAcknowledgePolicy id v => .emit 0x11 (frameBytes id 0x03 [p.regAckPolicy, 0x01, v])
  | .ramWriteSetControlMode id m => .emit 0x12 (frameBytes id 0x03 [p.regControlMode, 0x01, m])
  | .ramWriteSetTorque id m =>
    .emit 0x13 (frameBytes id 0x03 [p.regTorque, 0x01, ((TorqueMode.ofIndex? m).map TorqueMode.code).getD 0])
  | .ramReadGetAbsoluteAngle id => .emit 0x14 (frameBytes id 0x04 [0x3C, 0x02])
  | .ramReadGetCalibratedAngle id => .emit 0x15 (frameBytes id 0x04 [0x3A, 0x02])
  | .statGetStatus id => .emit 0x16 (frameBytes id 0x07 [])
  | .ramWriteClearStatus id => .emit 0x17 (frameBytes id 0x03 [p.regStatusError, 0x02, 0x00, 0x00])
  | .sJogRunMotion t entries => .emit 0x18 (frameBytes (jogAddress entries) 0x06 (t :: entries.flatMap JogEntry.bytes))
  | .statResponse id cmd c1 c2 se sd => .resp [0xFF, 0xFF, 0x09, id, cmd, c1, c2, se, sd]
  | .ramReadResponse2 id cmd c1 c2 b7 b8 lo hi se sd =>
    .resp [0xFF, 0xFF, 0x0D, id, cmd, c1, c2, b7, b8, lo, hi, se, sd]
  | .csum size id cmd payload => .op (0x00 :: size :: id :: cmd :: payload)
  | .encodeRequest id cmd payload => .op (0x01 :: id :: cmd :: payload)
  | .marshalRamWrite reg data => .op (0x02 :: reg :: data)
  | .marshalRamRead reg len => .op [0x03, reg, len]
  | .marshalSjog entries count => .op (0x04 :: (countBytes count ++ entries.flatMap MotionCommand.record))
  | .decodeHeader b => .op (0x08 :: b)
  | .decodeResponse b epl verify => .op (0x09 :: epl :: (if verify then 1 else 0) :: b)
  | .verifyChecksum b => .op (0x0A :: b)
  | .decodeAbsAngle b => .op (0x0B :: b)
  | .decodeCalAngle b => .op (0x0C :: b)
  | .decodeStatus b => .op (0x0D :: b)
  | .statusFlags se sd => .op [0x0E, se, sd]
  | .setLed id c => .op [0x10, id, c]
  | .setAcknowledgePolicy id v => .op [0x11, id, v]
  | .setControlMode id m => .op [0x12, id, m]
  | .setTorque id m => .op [0x13, id, m]
  | .getAbsoluteAngle id => .op [0x14, id]
  | .getCalibratedAngle id => .op [0x15, id]
  | .getStatus id => .op [0x16, id]
  | .clearStatus id => .op [0x17, id]
  | .runMotion entries count => .op (0x18 :: (countBytes count ++ entries.flatMap MotionCommand.record))

end Sys2Proof
end

