-- ==== Sys2Proof/Machine/Result.lean ====
section
/-! DEFINITION. What an operation ends with: `Ok` and a value, or one of the five errors (60_exceptions.md R150), and
the typed values of 30_encoding.md R71. -/

namespace Sys2Proof

/-- The five errors (R150). An error carries no further information. -/
inductive Err where
  | invalidArgument | payloadTooLarge | transportError | malformed | corrupt
  deriving DecidableEq, Repr

/-- The code on the 3-bit ERR port (R150, D4); 0 is Ok, 6 and 7 are never produced. -/
def Err.code : Err → BitVec 3
  | .invalidArgument => 1
  | .payloadTooLarge => 2
  | .transportError => 3
  | .malformed => 4
  | .corrupt => 5

/-- The `InvalidArgument` class of the source's taxonomy: codes 1 and 2 (R152, C4). -/
def Err.inInvalidArgumentClass : Err → Bool
  | .invalidArgument => true
  | .payloadTooLarge => true
  | .transportError => false
  | .malformed => false
  | .corrupt => false

/-- The errors after which the alignment of RX is no longer known (93_implementation_defined.md, after Part 1). -/
def Err.isGhostFault : Err → Bool
  | .invalidArgument => false
  | .payloadTooLarge => false
  | .transportError => true
  | .malformed => true
  | .corrupt => true

/-- `Result T`: `Ok(T)` or one error (R7). -/
abbrev Result (α : Type) := Except Err α

/-- `Status` (R7, R116): two independent bitmask bytes. -/
structure Status where
  statusError : Byte
  statusDetail : Byte
  deriving DecidableEq, Repr

/-- `DecodedResponse` (R7, R110). -/
structure DecodedResponse where
  packetSize : Byte
  motorId : Byte
  command : Byte
  checksum1 : Byte
  checksum2 : Byte
  payload : Bytes
  deriving DecidableEq, Repr

/-- The values operations return with `Ok` (R71), one constructor per kind of result. -/
inductive Value where
  /-- `Ok(())` of the write-only session operations -/
  | unit
  /-- (checksum1, checksum2) of `csum` -/
  | checksums (c1 c2 : Byte)
  /-- the frame of `encode_request` -/
  | packet (frame : Bytes)
  /-- the payload of `marshal_ram_write` and `marshal_ram_read` -/
  | payload (bytes : Bytes)
  /-- (frame motor_id, payload) of `marshal_sjog` -/
  | sjog (motorId : Byte) (bytes : Bytes)
  /-- (motor_id, command, packet_size) of `decode_header` -/
  | header (motorId command packetSize : Byte)
  /-- the record of `decode_response` -/
  | response (r : DecodedResponse)
  /-- the Boolean of `verify_checksum` -/
  | verified (ok : Bool)
  /-- (raw, millidegrees) of `decode_abs_angle` -/
  | absAngle (raw : U16) (millidegrees : BitVec 25)
  /-- millidegrees of `get_absolute_angle` -/
  | millidegrees (m : BitVec 25)
  /-- the calibrated position of `decode_cal_angle`, and beside it the raw value that the RAW port carries (R11) -/
  | calAngle (raw : U16) (calibrated : BitVec 10)
  /-- the calibrated position of `get_calibrated_angle` -/
  | calibrated (c : BitVec 10)
  /-- the status of `decode_status`, `get_status` and `clear_status` -/
  | status (st : Status)
  /-- the 16 flags and `any_set` of `status_flags` (R119) -/
  | flags (bits : BitVec 16) (anySet : Bool)
  /-- what the decoder makes of a STAT response (row STAT.response; R110, R116) -/
  | statResponse (r : DecodedResponse) (st : Status)
  /-- what the decoder makes of a 2-byte RAM_READ response (row RAM_READ.response2; R110, R114, R115, R57) -/
  | ramReadResponse (r : DecodedResponse) (raw : U16) (millidegrees : BitVec 25) (cal : BitVec 10) (trailing : Status)
  deriving DecidableEq, Repr

end Sys2Proof
end

