-- ==== Sys2Proof/Machine/Decoder.lean ====
section
/-! DEFINITION. The response and status-field decoder DEC as functions (42_decoder.md). Every operation tests
`well_framed` first and then the one length bound its own offsets need (R111). -/

namespace Sys2Proof

/-- `well_framed` (R111): a whole prefix, the header, and a size byte equal to the count of bytes. -/
def wellFramed (b : Bytes) : Bool :=
  decide (Config.overhead ≤ b.length) && byteAt b 0 == Config.headerByte && byteAt b 1 == Config.headerByte &&
    decide ((byteAt b 2).toNat = b.length)

/-- The payload: every byte from offset 7 on (R8, R110). -/
def payloadOf (b : Bytes) : Bytes := b.drop Config.overhead

/-- `checksums_match` (R113): the checksum bytes are those of the received bytes. -/
def checksumsMatch (b : Bytes) : Bool :=
  (byteAt b 5, byteAt b 6) == csum (byteAt b 2) (byteAt b 3) (byteAt b 4) (payloadOf b)

/-- `decode_response` (R110): framing, then length, then (opt-in) checksums. -/
def decodeResponse (b : Bytes) (expectedPayloadLen : Byte) (verify : Bool) : Result DecodedResponse :=
  if !wellFramed b then .error .malformed
  else if b.length ≠ Config.overhead + expectedPayloadLen.toNat then .error .malformed
  else if verify && !checksumsMatch b then .error .corrupt
  else .ok
    { packetSize := byteAt b 2, motorId := byteAt b 3, command := byteAt b 4,
      checksum1 := byteAt b 5, checksum2 := byteAt b 6, payload := payloadOf b }

/-- `decode_header` (R112): (motor_id, command, packet_size). -/
def decodeHeader (b : Bytes) : Result (Byte × Byte × Byte) :=
  if !wellFramed b then .error .malformed else .ok (byteAt b 3, byteAt b 4, byteAt b 2)

/-- `verify_checksum` (R113): a mismatch is a result, not an error. -/
def verifyChecksum (b : Bytes) : Result Bool :=
  if !wellFramed b then .error .malformed else .ok (checksumsMatch b)

/-- The raw position at offsets 9 and 10 (R34, R57). -/
def rawAt (b : Bytes) : U16 := rawOf (byteAt b 9) (byteAt b 10)

/-- `zext_25(raw) * 325` (R114). -/
def millidegreesOf (raw : U16) : BitVec 25 := raw.setWidth 25 * Config.angleScale

/-- `raw & 0x03FF`, 10 bits (R115). -/
def calibratedOf (raw : U16) : BitVec 10 := (raw &&& Config.calMask).setWidth 10

/-- `decode_abs_angle` (R114). -/
def decodeAbsAngle (b : Bytes) : Result (U16 × BitVec 25) :=
  if !wellFramed b || decide (b.length < 11) then .error .malformed
  else .ok (rawAt b, millidegreesOf (rawAt b))

/-- `decode_cal_angle` (R115). -/
def decodeCalAngle (b : Bytes) : Result (BitVec 10) :=
  if !wellFramed b || decide (b.length < 11) then .error .malformed
  else .ok (calibratedOf (rawAt b))

/-- The last two bytes of a frame (R56, R116). -/
def statusOf (b : Bytes) : Status := ⟨byteAt b (b.length - 2), byteAt b (b.length - 1)⟩

/-- `decode_status` (R116). -/
def decodeStatus (b : Bytes) : Result Status :=
  if !wellFramed b || decide (b.length < 9) then .error .malformed else .ok (statusOf b)

/-- Phase 5 of R130: `decode_response(b, n - 7, VERIFY_DEFAULT)`, then the operation's field decoder. -/
def decodeReply {α : Type} (n : Nat) (verify : Bool) (fields : Bytes → Result α) (b : Bytes) : Result α :=
  match decodeResponse b (BitVec.ofNat 8 (n - Config.overhead)) verify with
  | .error e => .error e
  | .ok _ => fields b

end Sys2Proof
end

