-- ==== Sys2Proof/Machine/Ports.lean ====
section
/-! DEFINITION. The output ports of 10_state.md R11. A port is not storage: every one is computed from the result of the
operation that carries it, and is `none` where that operation does not carry it. -/

namespace Sys2Proof

/-- The output ports, by their names and widths of R11. -/
structure Ports where
  err : BitVec 3
  pkt : Option Bytes
  pktLen : Option Byte
  cs1 : Option Byte
  cs2 : Option Byte
  rSize : Option Byte
  rId : Option Byte
  rCmd : Option Byte
  rPay : Option Bytes
  raw : Option U16
  angMdeg : Option (BitVec 25)
  cal : Option (BitVec 10)
  serr : Option Byte
  sdet : Option Byte
  deriving DecidableEq, Repr

/-- The ports of an operation that returns nothing but its ERR code. -/
def bareports (code : BitVec 3) : Ports where
  err := code
  pkt := none
  pktLen := none
  cs1 := none
  cs2 := none
  rSize := none
  rId := none
  rCmd := none
  rPay := none
  raw := none
  angMdeg := none
  cal := none
  serr := none
  sdet := none

/-- The ports that a decoded response drives. -/
def responsePorts (r : DecodedResponse) : Ports :=
  { bareports 0 with
    cs1 := some r.checksum1, cs2 := some r.checksum2, rSize := some r.packetSize, rId := some r.motorId,
    rCmd := some r.command, rPay := some r.payload }

/-- The ports that a returned value drives (R11). R11's column "carried by" names codec operations only: that a session read
drives the port of the value it returns (ANG_MDEG, CAL, or SERR and SDET) and leaves RAW, CS1, CS2 and the R_ ports of the
decoding inside it without value is the model's. DESIGN CHOICE, safe: log 6. -/
def valuePorts : Value → Ports
  | .unit => bareports 0
  | .checksums c1 c2 => { bareports 0 with cs1 := some c1, cs2 := some c2 }
  | .packet f => { bareports 0 with pkt := some f, pktLen := some (BitVec.ofNat 8 f.length) }
  | .payload _ => bareports 0
  | .sjog _ _ => bareports 0
  | .header id cmd size => { bareports 0 with rSize := some size, rId := some id, rCmd := some cmd }
  | .response r => responsePorts r
  | .verified _ => bareports 0
  | .absAngle raw m => { bareports 0 with raw := some raw, angMdeg := some m }
  | .millidegrees m => { bareports 0 with angMdeg := some m }
  | .calAngle raw c => { bareports 0 with raw := some raw, cal := some c }
  | .calibrated c => { bareports 0 with cal := some c }
  | .status st => { bareports 0 with serr := some st.statusError, sdet := some st.statusDetail }
  | .flags _ _ => bareports 0
  | .statResponse r st => { responsePorts r with serr := some st.statusError, sdet := some st.statusDetail }
  | .ramReadResponse r raw m c st =>
    { responsePorts r with
      raw := some raw, angMdeg := some m, cal := some c, serr := some st.statusError, sdet := some st.statusDetail }

/-- The ports at the end of an operation: ERR is 0 for Ok, else the error's code (R150). -/
def portsOf : Result Value → Ports
  | .ok v => valuePorts v
  | .error e => bareports e.code

end Sys2Proof
end

