-- ==== Sys2Proof/Machine/State.lean ====
section
/-! DEFINITION. State as plain data: the session state of 10_state.md R13 with the two streams of R15 and R16, the host
script and its index (R12), the result of the operation that ended last, and the environment's choices (R22). -/

namespace Sys2Proof.Machine

/-- `TH`, the transport handle (R13): the byte sink and byte source, with the environment's choices for the coming
calls. `tx` is the ghost log of R15. `rx` is every byte the environment delivers, oldest first (R16); log 2. -/
structure Transport where
  tx : Bytes
  rx : Bytes
  writes : List Config.TxChoice
  reads : List Config.RxChoice
  nWrites : Nat
  nReads : Nat
  deriving DecidableEq, Repr

/-- The machine's state. -/
structure State where
  busy : Bool
  th : Transport
  params : Config.Params
  script : List Entry
  opi : Nat
  ret : Option (Result Value)
  ghostFault : Bool
  deriving DecidableEq, Repr

/-- How the machine stops with a fault. -/
inductive Fault where
  /-- Raised by `step` when `opi` has reached the end of the script: "the run ends" (R12). Safe: nothing is claimed of
  what follows. -/
  | scriptEnded
  deriving DecidableEq, Repr

/-- Why there is no step. -/
inductive Refusal where
  /-- Raised by an arm of `exec` for an instruction that has no meaning yet. Safe. -/
  | notModelled (mnemonic : String)
  /-- Raised by every operation issued while BUSY = 1: it has no defined behaviour (R14, R186, D26). Safe: log 8. -/
  | busy
  /-- Raised by `step` for an entry the decoder refuses: "Every other OPSEL value selects nothing; the model refuses
  it" (R70). Safe. -/
  | undecodable (why : DecodeError)
  deriving DecidableEq, Repr

/-- The handle a creator gives whose RX and whose outcomes are the environment's (R23): RX is a free value, no outcome is
planned, so every outcome is a free value. -/
def Transport.atCreation : Transport where
  tx := []
  rx := Config.rxAtCreation
  writes := []
  reads := []
  nWrites := 0
  nReads := 0

/-- The state after the creation of a session (R23, R180): BUSY 0, the TX log empty, no port value, `opi` 0. -/
def State.create (th : Transport) (params : Config.Params) (script : List Entry) : State where
  busy := false
  th := { th with tx := [] }
  params := params
  script := script
  opi := 0
  ret := none
  ghostFault := false

/-- The machine right after reset, which is the creation of a session (R180); no script is loaded (log 4). -/
def State.reset : State := State.create Transport.atCreation Config.openParams []

end Sys2Proof.Machine
end

