-- ==== Sys2Proof/Machine/Ops.lean ====
section
/-! DEFINITION. The shared operations of the machine: the two transport primitives (20_memory.md R31, R32), the phases of
a session operation (43_session.md R130), the answer of a codec operation, an operation's end with a result or an error
(60_exceptions.md R162), and taking the next entry of the host script (10_state.md R12). -/

namespace Sys2Proof.Machine

/-- One step's outcome in this machine. -/
abbrev StepOutcome := Host.Outcome State Fault Refusal

/-- The environment's choice for the next `TxWrite`: the planned one, else a free value (R22; log 2). -/
def Transport.nextWrite (t : Transport) : Config.TxChoice :=
  match t.writes with
  | c :: _ => c
  | [] => Config.txChoice t.nWrites

/-- The environment's choice for the next `RxRead`: the planned one, else a free value (R22; log 2). -/
def Transport.nextRead (t : Transport) : Config.RxChoice :=
  match t.reads with
  | c :: _ => c
  | [] => Config.rxChoice t.nReads

/-- How the next `TxWrite` ends (R31, R22; log 22). -/
def Transport.writeEnding (t : Transport) : Config.CallEnd :=
  match t.nextWrite with
  | .success => .returns
  | .failure _ => .fails
  | .never _ => .never

/-- The bytes of `f` that the next `TxWrite` appends: all of them, or where it does not succeed some prefix (R31). -/
def Transport.bytesSent (t : Transport) (f : Bytes) : Bytes :=
  match t.nextWrite with
  | .success => f
  | .failure sent => f.take sent
  | .never sent => f.take sent

/-- The transport after `TxWrite(f)` (R31). -/
def Transport.afterWrite (t : Transport) (f : Bytes) : Transport :=
  { t with tx := t.tx ++ t.bytesSent f, writes := t.writes.tail, nWrites := t.nWrites + 1 }

/-- How `RxRead(n)` ends (R32): a read that would return does not if fewer than `n` bytes ever arrive. -/
def Transport.readEnding (t : Transport) (n : Nat) : Config.CallEnd :=
  match t.nextRead.ending with
  | .returns => if n ≤ t.rx.length then .returns else .never
  | .fails => .fails
  | .never => .never

/-- How many bytes `RxRead(n)` removes from RX: n where it returns, 0 to n where it fails (R32, U2), and a number the
spec does not define where it never returns (95_test_vectors.md V-Q26; log 9). -/
def Transport.bytesTaken (t : Transport) (n : Nat) : Nat :=
  match t.readEnding n with
  | .returns => n
  | .fails => min t.nextRead.taken n
  | .never => t.nextRead.taken

/-- The transport after `RxRead(n)`: bytes leave the front of RX (R16, R39). -/
def Transport.afterRead (t : Transport) (n : Nat) : Transport :=
  { t with rx := t.rx.drop (t.bytesTaken n), reads := t.reads.tail, nReads := t.nReads + 1 }

/-- Whether a result is one of the errors the ghost bit records. -/
def isGhostFault (r : Result Value) : Bool :=
  match r with
  | .ok _ => false
  | .error e => e.isGhostFault

/-- An operation returns, with a result or with an error: BUSY is 0 (R130 phase 6, R162), the result is what its ports
carry, and nothing else is saved or changed. -/
def State.finish (s : State) (r : Result Value) : State :=
  { s with busy := false, ret := some r, ghostFault := s.ghostFault || isGhostFault r }

/-- Phase 0 (R130): BUSY is 1 and no result is there yet. -/
def State.start (s : State) : State := { s with busy := true, ret := none }

/-- Phases 1 and 2: go on with what the operand checks and the framer give, or end with their error before any I/O. -/
def State.require {α : Type} (s : State) (r : Result α) (k : α → State) : State :=
  match r with
  | .ok a => k a
  | .error e => s.finish (.error e)

/-- The state with its transport replaced. -/
def State.withTh (s : State) (th : Transport) : State := { s with th := th }

/-- Phase 3: `TxWrite(f)`; a failure ends the operation with `TransportError`, and nothing is retried (R31, R153); a write
that never returns leaves the operation where it is, with BUSY 1 and no result (R22; log 22). -/
def State.send (s : State) (f : Bytes) (k : State → State) : State :=
  match s.th.writeEnding with
  | .returns => k (s.withTh (s.th.afterWrite f))
  | .fails => (s.withTh (s.th.afterWrite f)).finish (.error .transportError)
  | .never => s.withTh (s.th.afterWrite f)

/-- Phase 4: `b = RxRead(n)`; a failure ends the operation with `TransportError`; a read that never returns leaves the
operation where it is, with BUSY 1 and no result (R32, R189). -/
def State.receive (s : State) (n : Nat) (k : Bytes → State → State) : State :=
  match s.th.readEnding n with
  | .returns => k (s.th.rx.take n) (s.withTh (s.th.afterRead n))
  | .fails => (s.withTh (s.th.afterRead n)).finish (.error .transportError)
  | .never => s.withTh (s.th.afterRead n)

/-- Start an operation: it has no defined behaviour while BUSY is 1, and the model gives it no step (R14, R186, D26). -/
def issue (s : State) (body : State → State) : StepOutcome :=
  if s.busy then .refused .busy else .next (body s)

/-- A codec operation (R10): it returns its result and touches neither stream nor BUSY. -/
def answer (s : State) (r : Result Value) : StepOutcome := issue s fun s => s.finish r

/-- A session operation that writes one frame and awaits no response (R130 without phases 4 and 5; D16). -/
def emit (s : State) (request : Result Bytes) : StepOutcome :=
  issue s fun s => s.start.require request fun f => s.start.send f fun s => s.finish (.ok .unit)

/-- Phases 4 to 6: read a response of `n` bytes, decode it, return. -/
def State.awaitReply (s : State) (n : Nat) (fields : Bytes → Result Value) : State :=
  s.receive n fun b s => s.finish (decodeReply n s.params.verifyDefault fields b)

/-- A session operation that writes one request and reads its response (R130). -/
def exchange (s : State) (request : Result Bytes) (n : Nat) (fields : Bytes → Result Value) : StepOutcome :=
  issue s fun s => s.start.require request fun f => s.start.send f fun s => s.awaitReply n fields

/-- A session operation that writes one request, then a second one, and reads the response to the second (R138). -/
def exchangeTwo (s : State) (request second : Result Bytes) (n : Nat) (fields : Bytes → Result Value) : StepOutcome :=
  issue s fun s =>
    s.start.require request fun f =>
      s.start.send f fun s => s.require second fun g => s.send g fun s => s.awaitReply n fields

/-- The output ports at the end of the last operation (R11). -/
def State.ports (s : State) : Option Ports := s.ret.map portsOf

/-- The entry of the script that the host issues next (R12). -/
def State.nextEntry (s : State) : Option Entry := s.script[s.opi]?

/-- After an operation has returned, "whether it returned Ok or an error", `opi` goes up by one (R12); an operation that
never returns leaves it. -/
def State.advance (s : State) : State := if s.busy then s else { s with opi := s.opi + 1 }

/-- The script with `e` at index `n`; places that did not exist are filled with `e`. -/
def placeEntry (script : List Entry) (n : Nat) (e : Entry) : List Entry :=
  script.take n ++ List.replicate (n - script.length) e ++ e :: script.drop (n + 1)

end Sys2Proof.Machine
end

