-- ==== Sys2Proof/Machine/Csg.lean ====
section
/-! DEFINITION. The host operation of the checksum generator CSG (40_checksum.md R86). -/

namespace Sys2Proof.Machine

/-- `csum` (R86): total, raises no error. -/
def execCsum (packetSize motorId command : Byte) (payload : Bytes) (s : State) : StepOutcome :=
  answer s (.ok (.checksums (csum packetSize motorId command payload).1 (csum packetSize motorId command payload).2))

end Sys2Proof.Machine
end

