-- ==== Sys2Proof/Machine/Flags.lean ====
section
/-! DEFINITION. The 16 device status flags (42_decoder.md R117, R118, R119): their bits, and the 16-bit word of
`status_flags`. The block has no flags of its own (10_state.md R17). -/

namespace Sys2Proof

/-- The flags of `status_error` (R117). -/
inductive ErrorFlag where
  | voltage | potLimit | temperature | invalidPacket | overload | driverFault | eepDistorted | reserved
  deriving DecidableEq, Repr

/-- The flags of `status_detail` (R118). -/
inductive DetailFlag where
  | moving | inPosition | checksumError | unknownCommand | regRange | garbage | motorOn | reserved
  deriving DecidableEq, Repr

/-- Bit positions in `status_error`: the order of the source's list from bit 0 (R117, D13; log 17). -/
def ErrorFlag.bit : ErrorFlag → Nat
  | .voltage => 0
  | .potLimit => 1
  | .temperature => 2
  | .invalidPacket => 3
  | .overload => 4
  | .driverFault => 5
  | .eepDistorted => 6
  | .reserved => 7

/-- Bit positions in `status_detail`: the order of the source's list from bit 0 (R118, D13; log 17). -/
def DetailFlag.bit : DetailFlag → Nat
  | .moving => 0
  | .inPosition => 1
  | .checksumError => 2
  | .unknownCommand => 3
  | .regRange => 4
  | .garbage => 5
  | .motorOn => 6
  | .reserved => 7

/-- A flag of `status_error` is set when `(status_error >> k) & 1 = 1` (R117). -/
def Status.hasError (st : Status) (f : ErrorFlag) : Bool := (st.statusError >>> f.bit) &&& 1 == 1

/-- A flag of `status_detail` is set when `(status_detail >> k) & 1 = 1` (R118). -/
def Status.hasDetail (st : Status) (f : DetailFlag) : Bool := (st.statusDetail >>> f.bit) &&& 1 == 1

/-- The 16 flags: `status_error` in bits 7:0, `status_detail` in bits 15:8 (R119). -/
def flagBits (st : Status) : BitVec 16 := st.statusError.setWidth 16 ||| (st.statusDetail.setWidth 16 <<< 8)

/-- `any_set`: some bit is set, a reserved one counts (R119, D20). -/
def anyFlagSet (st : Status) : Bool := flagBits st != 0

end Sys2Proof
end

