-- ==== Sys2Proof/Machine/Dec.lean ====
section
/-! DEFINITION. The host operations of the response and status-field decoder DEC (42_decoder.md R110 to R119). -/

namespace Sys2Proof.Machine

/-- `decode_header` (R112). -/
def execDecodeHeader (bytes : Bytes) (s : State) : StepOutcome :=
  answer s ((decodeHeader bytes).map fun r => .header r.1 r.2.1 r.2.2)

/-- `decode_response` (R110). -/
def execDecodeResponse (bytes : Bytes) (expectedPayloadLen : Byte) (verify : Bool) (s : State) : StepOutcome :=
  answer s ((decodeResponse bytes expectedPayloadLen verify).map .response)

/-- `verify_checksum` (R113). -/
def execVerifyChecksum (bytes : Bytes) (s : State) : StepOutcome :=
  answer s ((verifyChecksum bytes).map .verified)

/-- `decode_abs_angle` (R114). -/
def execDecodeAbsAngle (bytes : Bytes) (s : State) : StepOutcome :=
  answer s ((decodeAbsAngle bytes).map fun r => .absAngle r.1 r.2)

/-- `decode_cal_angle` (R115); like every angle decoder it carries `raw` on the RAW port (R11). -/
def execDecodeCalAngle (bytes : Bytes) (s : State) : StepOutcome :=
  answer s ((decodeCalAngle bytes).map (.calAngle (rawAt bytes) ·))

/-- `decode_status` (R116). -/
def execDecodeStatus (bytes : Bytes) (s : State) : StepOutcome :=
  answer s ((decodeStatus bytes).map .status)

/-- `status_flags` (R119): total, raises no error. -/
def execStatusFlags (statusError statusDetail : Byte) (s : State) : StepOutcome :=
  answer s (.ok (.flags (flagBits ⟨statusError, statusDetail⟩) (anyFlagSet ⟨statusError, statusDetail⟩)))

end Sys2Proof.Machine
end

