-- ==== Sys2Proof/Machine/Framer.lean ====
section
/-! DEFINITION. The packet framer FRM as functions (41_framer.md): `encode_request`, the payload marshallers, and the
request frames of the session operations (43_session.md phases 1 and 2). -/

namespace Sys2Proof

/-- `encode_request` (R90): the command is checked before the payload (D25). -/
def encodeRequest (motorId command : Byte) (payload : Bytes) : Result Bytes :=
  if command.toNat < Config.cmdMin.toNat ∨ Config.cmdMax.toNat < command.toNat then .error .invalidArgument
  else if Config.maxPayload < payload.length then .error .payloadTooLarge
  else .ok (frameBytes motorId command payload)

/-- `marshal_ram_write` (R94). -/
def marshalRamWrite (register : Byte) (data : Bytes) : Result Bytes :=
  if Config.maxPayload < 2 + data.length then .error .payloadTooLarge
  else .ok (register :: BitVec.ofNat 8 data.length :: data)

/-- `marshal_ram_read` (R95). -/
def marshalRamRead (register length : Byte) : Result Bytes := .ok [register, length]

/-- `marshal_sjog` (R97): the frame's motor_id is the first entry's (R98), the time is the first entry's (R58), entries
beyond `count` are not examined, and argument checks come before the size check (D25). -/
def marshalSjog (entries : List MotionCommand) (count : Nat) : Result (Byte × Bytes) :=
  if entries.length < count then .error .invalidArgument
  else
    match entries.take count with
    | [] => .error .invalidArgument
    | first :: others =>
      if !(first :: others).all MotionCommand.ok then .error .invalidArgument
      else if Config.maxPayload < 1 + 4 * count then .error .payloadTooLarge
      else .ok (first.motorId, first.timeTicks :: (first :: others).flatMap fun e => e.jog.bytes)

/-- A RAM_WRITE of one data byte to one device register (R131 to R134). -/
def registerWrite (motorId register value : Byte) : Result Bytes :=
  match marshalRamWrite register [value] with
  | .ok payload => encodeRequest motorId Command.ramWrite.code payload
  | .error e => .error e

/-- A RAM_READ of the two bytes of a position (R135, R136). -/
def positionRead (motorId register : Byte) : Result Bytes :=
  match marshalRamRead register Config.angleDataLen with
  | .ok payload => encodeRequest motorId Command.ramRead.code payload
  | .error e => .error e

/-- The request of `set_led` (R131). -/
def ledRequest (motorId colour : Byte) : Result Bytes :=
  match motorIdOk motorId, Colour.ofByte? colour with
  | true, some c => registerWrite motorId Config.regLed c.code
  | _, _ => .error .invalidArgument

/-- The request of `set_acknowledge_policy` (R132). -/
def policyRequest (p : Config.Params) (motorId policy : Byte) : Result Bytes :=
  if motorIdOk motorId && policyOk policy then registerWrite motorId p.regAckPolicy policy
  else .error .invalidArgument

/-- The request of `set_control_mode` (R133). -/
def controlModeRequest (p : Config.Params) (motorId mode : Byte) : Result Bytes :=
  match motorIdOk motorId, Mode.ofByte? mode with
  | true, some m => registerWrite motorId p.regControlMode m.code
  | _, _ => .error .invalidArgument

/-- The request of `set_torque` (R134). -/
def torqueRequest (p : Config.Params) (motorId mode : Byte) : Result Bytes :=
  match motorIdOk motorId, TorqueMode.ofIndex? mode with
  | true, some t => registerWrite motorId p.regTorque t.code
  | _, _ => .error .invalidArgument

/-- The request of `get_absolute_angle` (R135). -/
def absoluteAngleRequest (motorId : Byte) : Result Bytes :=
  if motorIdOk motorId then positionRead motorId Config.regAbsPos else .error .invalidArgument

/-- The request of `get_calibrated_angle` (R136). -/
def calibratedAngleRequest (motorId : Byte) : Result Bytes :=
  if motorIdOk motorId then positionRead motorId Config.regCalPos else .error .invalidArgument

/-- The request of `get_status` (R137). -/
def statusRequest (motorId : Byte) : Result Bytes :=
  if motorIdOk motorId then encodeRequest motorId Command.stat.code [] else .error .invalidArgument

/-- The first request of `clear_status` (R138, D15): one RAM_WRITE that zeroes both status registers. -/
def clearRequest (p : Config.Params) (motorId : Byte) : Result Bytes :=
  if motorIdOk motorId then
    match marshalRamWrite p.regStatusError [0x00, 0x00] with
    | .ok payload => encodeRequest motorId Command.ramWrite.code payload
    | .error e => .error e
  else .error .invalidArgument

/-- The request of `run_motion` (R139). -/
def motionRequest (entries : List MotionCommand) (count : Nat) : Result Bytes :=
  match marshalSjog entries count with
  | .ok (fid, payload) => encodeRequest fid Command.sJog.code payload
  | .error e => .error e

end Sys2Proof
end

