-- ==== Sys2Proof/Machine/FixedRows.lean ====
section
/-! DEFINITION. The nine FRAME_FIXED rows: the frames the session operations emit (30_encoding.md R73). Such a row is the
emission itself: the operand checks, marshalling, framing and TxWrite (phases 0 to 3 and 6 of 43_session.md R130) of the
operation that emits it. DEDUCED, safe: log 11. -/

namespace Sys2Proof.Machine

/-- RAM_WRITE.set_led (R131). -/
def execRamWriteSetLed (motorId colour : Byte) (s : State) : StepOutcome := emit s (ledRequest motorId colour)

/-- RAM_WRITE.set_acknowledge_policy (R132). -/
def execRamWriteSetAcknowledgePolicy (motorId policy : Byte) (s : State) : StepOutcome :=
  emit s (policyRequest s.params motorId policy)

/-- RAM_WRITE.set_control_mode (R133). -/
def execRamWriteSetControlMode (motorId mode : Byte) (s : State) : StepOutcome :=
  emit s (controlModeRequest s.params motorId mode)

/-- RAM_WRITE.set_torque (R134). -/
def execRamWriteSetTorque (motorId mode : Byte) (s : State) : StepOutcome :=
  emit s (torqueRequest s.params motorId mode)

/-- RAM_READ.get_absolute_angle: the request of R135. -/
def execRamReadGetAbsoluteAngle (motorId : Byte) (s : State) : StepOutcome := emit s (absoluteAngleRequest motorId)

/-- RAM_READ.get_calibrated_angle: the request of R136. -/
def execRamReadGetCalibratedAngle (motorId : Byte) (s : State) : StepOutcome := emit s (calibratedAngleRequest motorId)

/-- STAT.get_status: the request of R137, "and the second frame of clear_status". -/
def execStatGetStatus (motorId : Byte) (s : State) : StepOutcome := emit s (statusRequest motorId)

/-- RAM_WRITE.clear_status: the first frame of R138. -/
def execRamWriteClearStatus (motorId : Byte) (s : State) : StepOutcome := emit s (clearRequest s.params motorId)

/-- S_JOG.run_motion (R139): the frame carries one time, the first entry's (R58). -/
def execSJogRunMotion (timeTicks : Byte) (entries : List JogEntry) (s : State) : StepOutcome :=
  emit s (motionRequest (entries.map fun e => e.withTime timeTicks) entries.length)

end Sys2Proof.Machine
end

