-- ==== Sys2Proof/Machine/FrameRows.lean ====
section
/-! DEFINITION. The nine FRAME rows: each wire command's frame, built by the framer from motor_id and payload
(30_encoding.md R52, 41_framer.md R90, R93). The block has no path that puts such a frame on the wire (43_session.md
R141), so the result is the frame on the PKT port. DEDUCED, safe: log 10. -/

namespace Sys2Proof.Machine

/-- Frame a wire command (R90). -/
def frameCommand (c : Command) (motorId : Byte) (payload : Bytes) (s : State) : StepOutcome :=
  answer s ((encodeRequest motorId c.code payload).map .packet)

/-- EEP_WRITE (R52), opaque payload (R93). -/
def execEepWrite (motorId : Byte) (payload : Bytes) (s : State) : StepOutcome :=
  frameCommand .eepWrite motorId payload s

/-- EEP_READ (R52), opaque payload (R93). -/
def execEepRead (motorId : Byte) (payload : Bytes) (s : State) : StepOutcome :=
  frameCommand .eepRead motorId payload s

/-- RAM_WRITE (R52); the framer does not look inside the payload (R93). -/
def execRamWrite (motorId : Byte) (payload : Bytes) (s : State) : StepOutcome :=
  frameCommand .ramWrite motorId payload s

/-- RAM_READ (R52); the framer does not look inside the payload (R93). -/
def execRamRead (motorId : Byte) (payload : Bytes) (s : State) : StepOutcome :=
  frameCommand .ramRead motorId payload s

/-- I_JOG (R52), opaque payload (R93). -/
def execIJog (motorId : Byte) (payload : Bytes) (s : State) : StepOutcome :=
  frameCommand .iJog motorId payload s

/-- S_JOG (R52); the framer does not look inside the payload (R93). -/
def execSJog (motorId : Byte) (payload : Bytes) (s : State) : StepOutcome :=
  frameCommand .sJog motorId payload s

/-- STAT (R52); the framer does not look inside the payload (R93). -/
def execStat (motorId : Byte) (payload : Bytes) (s : State) : StepOutcome :=
  frameCommand .stat motorId payload s

/-- ROLLBACK (R52), opaque payload (R93). -/
def execRollback (motorId : Byte) (payload : Bytes) (s : State) : StepOutcome :=
  frameCommand .rollback motorId payload s

/-- REBOOT (R52), opaque payload (R93). -/
def execReboot (motorId : Byte) (payload : Bytes) (s : State) : StepOutcome :=
  frameCommand .reboot motorId payload s

end Sys2Proof.Machine
end

