-- ==== Sys2Proof/Machine/Frm.lean ====
section
/-! DEFINITION. The host operations of the packet framer FRM (41_framer.md R90, R94, R95, R97). -/

namespace Sys2Proof.Machine

/-- `encode_request` (R90). -/
def execEncodeRequest (motorId command : Byte) (payload : Bytes) (s : State) : StepOutcome :=
  answer s ((encodeRequest motorId command payload).map .packet)

/-- `marshal_ram_write` (R94). -/
def execMarshalRamWrite (register : Byte) (data : Bytes) (s : State) : StepOutcome :=
  answer s ((marshalRamWrite register data).map .payload)

/-- `marshal_ram_read` (R95). -/
def execMarshalRamRead (register length : Byte) (s : State) : StepOutcome :=
  answer s ((marshalRamRead register length).map .payload)

/-- `marshal_sjog` (R97). -/
def execMarshalSjog (entries : List MotionCommand) (count : Nat) (s : State) : StepOutcome :=
  answer s ((marshalSjog entries count).map fun r => .sjog r.1 r.2)

end Sys2Proof.Machine
end

