-- ==== Sys2Proof/Machine/RespRows.lean ====
section
/-! DEFINITION. The two RESP rows: the response layouts of 30_encoding.md R56 and R57, as the bytes a read has returned.
Their meaning is the decoder's work on them (phase 5 of 43_session.md R130): `decode_response` with `VERIFY_DEFAULT`, then
the field decoders. The bytes left RX with the read, so neither stream is touched. DEDUCED, safe: log 12. -/

namespace Sys2Proof.Machine

/-- The 9 bytes of a STAT response (R56). -/
def statResponseBytes (motorId command c1 c2 statusError statusDetail : Byte) : Bytes :=
  [Config.headerByte, Config.headerByte, BitVec.ofNat 8 Config.statRespLen, motorId, command, c1, c2,
    statusError, statusDetail]

/-- The 13 bytes of a RAM_READ response of two data bytes (R57). -/
def ramReadResponseBytes (motorId command c1 c2 byte7 byte8 dataLow dataHigh statusError statusDetail : Byte) : Bytes :=
  [Config.headerByte, Config.headerByte, BitVec.ofNat 8 (Config.ramRespOverhead + Config.angleDataLen.toNat),
    motorId, command, c1, c2, byte7, byte8, dataLow, dataHigh, statusError, statusDetail]

/-- STAT.response, "decoded by rules R110 and R116". -/
def execStatResponse (motorId command c1 c2 statusError statusDetail : Byte) (s : State) : StepOutcome :=
  let b := statResponseBytes motorId command c1 c2 statusError statusDetail
  answer s <|
    match decodeResponse b 2 s.params.verifyDefault, decodeStatus b with
    | .error e, _ => .error e
    | .ok _, .error e => .error e
    | .ok r, .ok st => .ok (.statResponse r st)

/-- RAM_READ.response2, "decoded by rules R110, R114, R115"; the two trailing bytes are status bytes (R57, D31). -/
def execRamReadResponse2 (motorId command c1 c2 byte7 byte8 dataLow dataHigh statusError statusDetail : Byte)
    (s : State) : StepOutcome :=
  let b := ramReadResponseBytes motorId command c1 c2 byte7 byte8 dataLow dataHigh statusError statusDetail
  answer s <|
    match decodeResponse b 6 s.params.verifyDefault, decodeAbsAngle b, decodeCalAngle b, decodeStatus b with
    | .ok r, .ok (raw, m), .ok c, .ok st => .ok (.ramReadResponse r raw m c st)
    | .error e, _, _, _ => .error e
    | _, .error e, _, _ => .error e
    | _, _, .error e, _ => .error e
    | _, _, _, .error e => .error e

end Sys2Proof.Machine
end

