-- ==== Sys2Proof/Machine/Seq.lean ====
section
/-! DEFINITION. The nine operations of the motor-session sequencer SEQ (43_session.md R131 to R139). -/

namespace Sys2Proof.Machine

/-- `set_led` (R131). -/
def execSetLed (motorId colour : Byte) (s : State) : StepOutcome := emit s (ledRequest motorId colour)

/-- `set_acknowledge_policy` (R132). -/
def execSetAcknowledgePolicy (motorId policy : Byte) (s : State) : StepOutcome :=
  emit s (policyRequest s.params motorId policy)

/-- `set_control_mode` (R133). -/
def execSetControlMode (motorId mode : Byte) (s : State) : StepOutcome :=
  emit s (controlModeRequest s.params motorId mode)

/-- `set_torque` (R134). -/
def execSetTorque (motorId mode : Byte) (s : State) : StepOutcome := emit s (torqueRequest s.params motorId mode)

/-- Bytes read for a position: `11 + 2` (R38, R57). -/
def positionReplyLen : Nat := Config.ramRespOverhead + Config.angleDataLen.toNat

/-- `get_absolute_angle` (R135): millidegrees. -/
def execGetAbsoluteAngle (motorId : Byte) (s : State) : StepOutcome :=
  exchange s (absoluteAngleRequest motorId) positionReplyLen fun b =>
    (decodeAbsAngle b).map fun r => .millidegrees r.2

/-- `get_calibrated_angle` (R136). -/
def execGetCalibratedAngle (motorId : Byte) (s : State) : StepOutcome :=
  exchange s (calibratedAngleRequest motorId) positionReplyLen fun b => (decodeCalAngle b).map .calibrated

/-- `get_status` (R137): a status with bits set is a value, not an error (R156). -/
def execGetStatus (motorId : Byte) (s : State) : StepOutcome :=
  exchange s (statusRequest motorId) Config.statRespLen fun b => (decodeStatus b).map .status

/-- `clear_status` (R138): one RAM_WRITE, then exactly the body of `get_status`; no loop. -/
def execClearStatus (motorId : Byte) (s : State) : StepOutcome :=
  exchangeTwo s (clearRequest s.params motorId) (statusRequest motorId) Config.statRespLen fun b =>
    (decodeStatus b).map .status

/-- `run_motion` (R139): the operation does not wait for the motion. -/
def execRunMotion (entries : List MotionCommand) (count : Nat) (s : State) : StepOutcome :=
  emit s (motionRequest entries count)

end Sys2Proof.Machine
end

