-- ==== Sys2Proof/Machine/Dispatch.lean ====
section
/-! DEFINITION. One arm per constructor of Instr: a direct call of the instruction's meaning. -/

namespace Sys2Proof.Machine

/-- The meaning of an instruction. -/
def exec (i : Instr) (s : State) : Host.Outcome State Fault Refusal :=
  match i with
  | .eepWrite motorId payload => Sys2Proof.Machine.execEepWrite motorId payload s
  | .eepRead motorId payload => Sys2Proof.Machine.execEepRead motorId payload s
  | .ramWrite motorId payload => Sys2Proof.Machine.execRamWrite motorId payload s
  | .ramRead motorId payload => Sys2Proof.Machine.execRamRead motorId payload s
  | .iJog motorId payload => Sys2Proof.Machine.execIJog motorId payload s
  | .sJog motorId payload => Sys2Proof.Machine.execSJog motorId payload s
  | .stat motorId payload => Sys2Proof.Machine.execStat motorId payload s
  | .rollback motorId payload => Sys2Proof.Machine.execRollback motorId payload s
  | .reboot motorId payload => Sys2Proof.Machine.execReboot motorId payload s
  | .ramWriteSetLed motorId colour => Sys2Proof.Machine.execRamWriteSetLed motorId colour s
  | .ramWriteSetAcknowledgePolicy motorId policy => Sys2Proof.Machine.execRamWriteSetAcknowledgePolicy motorId policy s
  | .ramWriteSetControlMode motorId mode => Sys2Proof.Machine.execRamWriteSetControlMode motorId mode s
  | .ramWriteSetTorque motorId mode => Sys2Proof.Machine.execRamWriteSetTorque motorId mode s
  | .ramReadGetAbsoluteAngle motorId => Sys2Proof.Machine.execRamReadGetAbsoluteAngle motorId s
  | .ramReadGetCalibratedAngle motorId => Sys2Proof.Machine.execRamReadGetCalibratedAngle motorId s
  | .statGetStatus motorId => Sys2Proof.Machine.execStatGetStatus motorId s
  | .ramWriteClearStatus motorId => Sys2Proof.Machine.execRamWriteClearStatus motorId s
  | .sJogRunMotion timeTicks entries => Sys2Proof.Machine.execSJogRunMotion timeTicks entries s
  | .statResponse motorId command checksum1 checksum2 statusError statusDetail => Sys2Proof.Machine.execStatResponse motorId command checksum1 checksum2 statusError statusDetail s
  | .ramReadResponse2 motorId command checksum1 checksum2 byte7 byte8 dataLow dataHigh statusError statusDetail => Sys2Proof.Machine.execRamReadResponse2 motorId command checksum1 checksum2 byte7 byte8 dataLow dataHigh statusError statusDetail s
  | .csum packetSize motorId command payload => Sys2Proof.Machine.execCsum packetSize motorId command payload s
  | .encodeRequest motorId command payload => Sys2Proof.Machine.execEncodeRequest motorId command payload s
  | .marshalRamWrite register data => Sys2Proof.Machine.execMarshalRamWrite register data s
  | .marshalRamRead register length => Sys2Proof.Machine.execMarshalRamRead register length s
  | .marshalSjog entries count => Sys2Proof.Machine.execMarshalSjog entries count s
  | .decodeHeader bytes => Sys2Proof.Machine.execDecodeHeader bytes s
  | .decodeResponse bytes expectedPayloadLen verify => Sys2Proof.Machine.execDecodeResponse bytes expectedPayloadLen verify s
  | .verifyChecksum bytes => Sys2Proof.Machine.execVerifyChecksum bytes s
  | .decodeAbsAngle bytes => Sys2Proof.Machine.execDecodeAbsAngle bytes s
  | .decodeCalAngle bytes => Sys2Proof.Machine.execDecodeCalAngle bytes s
  | .decodeStatus bytes => Sys2Proof.Machine.execDecodeStatus bytes s
  | .statusFlags statusError statusDetail => Sys2Proof.Machine.execStatusFlags statusError statusDetail s
  | .setLed motorId colour => Sys2Proof.Machine.execSetLed motorId colour s
  | .setAcknowledgePolicy motorId policy => Sys2Proof.Machine.execSetAcknowledgePolicy motorId policy s
  | .setControlMode motorId mode => Sys2Proof.Machine.execSetControlMode motorId mode s
  | .setTorque motorId mode => Sys2Proof.Machine.execSetTorque motorId mode s
  | .getAbsoluteAngle motorId => Sys2Proof.Machine.execGetAbsoluteAngle motorId s
  | .getCalibratedAngle motorId => Sys2Proof.Machine.execGetCalibratedAngle motorId s
  | .getStatus motorId => Sys2Proof.Machine.execGetStatus motorId s
  | .clearStatus motorId => Sys2Proof.Machine.execClearStatus motorId s
  | .runMotion entries count => Sys2Proof.Machine.execRunMotion entries count s

end Sys2Proof.Machine
end

