-- ==== Sys2Proof/Machine/Step.lean ====
section
/-! DEFINITION. One step: the host issues the entry of its script at `opi` (10_state.md R12), the decoder reads it, the
operation runs to its end, and `opi` goes up by one if it has returned. -/

namespace Sys2Proof.Machine

/-- One step of the machine. -/
def step (s : State) : Host.Outcome State Fault Refusal :=
  match s.nextEntry with
  | none => .fault .scriptEnded
  | some e =>
    match decode s.params e with
    | .error why => .refused (.undecodable why)
    | .ok i =>
      match exec i s with
      | .next t => .next t.advance
      | .fault f => .fault f
      | .refused r => .refused r

/-- The state whose next step runs the instruction with these table bits: a script is loaded from outside (log 4), so
this is that load for the one place the next step reads. -/
def State.withFetchWord (s : State) (nbits w : Nat) : State :=
  { s with script := placeEntry s.script s.opi (tableEntry s.params nbits w) }

end Sys2Proof.Machine
end

