-- ==== Sys2Proof/Safety.lean ====
section
/-! DEFINITION. The terms the statements use: frames and checks written straight from the rules (with their own numbers,
so that a statement does not lean on the definitions it is about), what a transport call leaves behind, and what counts as
a safe run. -/

namespace Sys2Proof

/-- The XOR of all bytes of a sequence (R6). -/
def xorAll (p : Bytes) : Byte := p.foldr (· ^^^ ·) 0

/-- checksum1 as R80 writes it. -/
def ruleChecksum1 (packetSize motorId command : Byte) (payload : Bytes) : Byte :=
  (packetSize ^^^ motorId ^^^ command ^^^ xorAll payload) &&& 0xFE

/-- checksum2 as R81 writes it. -/
def ruleChecksum2 (packetSize motorId command : Byte) (payload : Bytes) : Byte :=
  ~~~(ruleChecksum1 packetSize motorId command payload) &&& 0xFE

/-- The frame of R50 for a motor_id, a command and a payload of at most 248 bytes. -/
def wireFrame (motorId command : Byte) (payload : Bytes) : Bytes :=
  let size := BitVec.ofNat 8 (7 + payload.length)
  [0xFF, 0xFF, size, motorId, command, ruleChecksum1 size motorId command payload,
    ruleChecksum2 size motorId command payload] ++ payload

/-- `well_framed` as R111 lists it. -/
abbrev Framed (b : Bytes) : Prop :=
  7 ≤ b.length ∧ b[0]? = some 0xFF ∧ b[1]? = some 0xFF ∧ (b[2]?).map BitVec.toNat = some b.length ∧ b.length ≤ 255

/-- A frame's checksum bytes are those of R80 and R81 over its other bytes (R85, R113). -/
def ChecksumsRight (b : Bytes) : Prop :=
  ∃ size id cmd c1 c2 p, b = [0xFF, 0xFF, size, id, cmd, c1, c2] ++ p ∧
    c1 = ruleChecksum1 size id cmd p ∧ c2 = ruleChecksum2 size id cmd p

/-- An entry of `marshal_sjog` that R97 accepts. -/
abbrev MotionCommand.InRange (e : MotionCommand) : Prop :=
  e.motorId ≠ 255 ∧ e.target.toNat ≤ 1023 ∧ (e.led = 1 ∨ e.led = 2 ∨ e.led = 4) ∧ (e.mode = 0 ∨ e.mode = 1)

/-- The four bytes of an entry, with the numbers of R58 and R59. -/
def MotionCommand.ruleBytes (e : MotionCommand) : Bytes :=
  [BitVec.ofNat 8 (e.target.toNat / 256), BitVec.ofNat 8 (e.target.toNat % 256),
    BitVec.ofNat 8 (2 * e.mode.toNat + 4 * e.led.toNat), e.motorId]

/-- Address and payload of an S_JOG request for these entries (R58, R98). -/
def jogPayload (first : MotionCommand) (others : List MotionCommand) : Bytes :=
  first.timeTicks :: (first :: others).flatMap MotionCommand.ruleBytes

/-- The codes of R62 by the index of R134. -/
def torqueWire (mode : Byte) : Option Byte :=
  match mode.toNat with
  | 0 => some 0x00
  | 1 => some 0x40
  | 2 => some 0x60
  | _ => none

/-- The frame of `run_motion` (R139), where R97 accepts the operands. -/
def motionFrame (entries : List MotionCommand) (count : Nat) : Option Bytes :=
  match entries.take count with
  | [] => none
  | first :: others =>
    if count ≤ entries.length ∧ count ≤ 61 ∧ ∀ e ∈ first :: others, e.InRange then
      some (wireFrame first.motorId 0x06 (jogPayload first others))
    else none

/-- The first request frame of an instruction that writes to the transport, where its operands are accepted (R131 to
R139); `none` for every other instruction and for refused operands. -/
def firstRequest (p : Config.Params) (i : Instr) : Option Bytes :=
  let led (id c : Byte) := if id ≠ 255 ∧ (c = 1 ∨ c = 2 ∨ c = 4) then some (wireFrame id 0x03 [53, 1, c]) else none
  let policy (id v : Byte) := if id ≠ 255 ∧ v.toNat ≤ 2 then some (wireFrame id 0x03 [p.regAckPolicy, 1, v]) else none
  let mode (id m : Byte) := if id ≠ 255 ∧ m.toNat ≤ 1 then some (wireFrame id 0x03 [p.regControlMode, 1, m]) else none
  let torque (id m : Byte) :=
    if id ≠ 255 then (torqueWire m).map fun t => wireFrame id 0x03 [p.regTorque, 1, t] else none
  let absolute (id : Byte) := if id ≠ 255 then some (wireFrame id 0x04 [60, 2]) else none
  let calibrated (id : Byte) := if id ≠ 255 then some (wireFrame id 0x04 [58, 2]) else none
  let status (id : Byte) := if id ≠ 255 then some (wireFrame id 0x07 []) else none
  let clear (id : Byte) := if id ≠ 255 then some (wireFrame id 0x03 [p.regStatusError, 2, 0, 0]) else none
  match i with
  | .setLed id c => led id c
  | .ramWriteSetLed id c => led id c
  | .setAcknowledgePolicy id v => policy id v
  | .ramWriteSetAcknowledgePolicy id v => policy id v
  | .setControlMode id m => mode id m
  | .ramWriteSetControlMode id m => mode id m
  | .setTorque id m => torque id m
  | .ramWriteSetTorque id m => torque id m
  | .getAbsoluteAngle id => absolute id
  | .ramReadGetAbsoluteAngle id => absolute id
  | .getCalibratedAngle id => calibrated id
  | .ramReadGetCalibratedAngle id => calibrated id
  | .getStatus id => status id
  | .statGetStatus id => status id
  | .clearStatus id => clear id
  | .ramWriteClearStatus id => clear id
  | .runMotion es n => motionFrame es n
  | .sJogRunMotion t es => motionFrame (es.map fun e => e.withTime t) es.length
  | _ => none

/-- Everything an instruction puts on TX when no write fails: its request, and for `clear_status` a second one (R138). -/
def requestBytes (p : Config.Params) (i : Instr) : Option Bytes :=
  match i with
  | .clearStatus id => (firstRequest p i).map fun f => f ++ wireFrame id 0x07 []
  | i => firstRequest p i

/-- Bytes of the response an instruction reads (R32); 0 for one that reads nothing. -/
def responseLen : Instr → Nat
  | .getAbsoluteAngle _ => 13
  | .getCalibratedAngle _ => 13
  | .getStatus _ => 9
  | .clearStatus _ => 9
  | _ => 0

/-- The instructions that write to the transport: the session operations and the rows of the frames they emit. -/
def writesTransport : Instr → Bool
  | .setLed _ _ | .ramWriteSetLed _ _ | .setAcknowledgePolicy _ _ | .ramWriteSetAcknowledgePolicy _ _ => true
  | .setControlMode _ _ | .ramWriteSetControlMode _ _ | .setTorque _ _ | .ramWriteSetTorque _ _ => true
  | .getAbsoluteAngle _ | .ramReadGetAbsoluteAngle _ | .getCalibratedAngle _ | .ramReadGetCalibratedAngle _ => true
  | .getStatus _ | .statGetStatus _ | .clearStatus _ | .ramWriteClearStatus _ => true
  | .runMotion _ _ | .sJogRunMotion _ _ => true
  | _ => false

/-- The codec instructions: CSG, FRM and DEC operations and the frames and responses they build and take (R10). -/
def isCodec (i : Instr) : Bool := !writesTransport i

/-- R157's table: which instruction can end with which error. A FRAME row is an `encode_request` whose command is legal, a
FRAME_FIXED row is a write, a RESP row is a `decode_response` with `VERIFY_DEFAULT`. -/
def canEndWith (p : Config.Params) (i : Instr) (e : Err) : Bool :=
  match i, e with
  | .encodeRequest _ _ _, .invalidArgument => true
  | .encodeRequest _ _ _, .payloadTooLarge => true
  | .marshalRamWrite _ _, .payloadTooLarge => true
  | .marshalSjog _ _, .invalidArgument => true
  | .marshalSjog _ _, .payloadTooLarge => true
  | .decodeHeader _, .malformed => true
  | .decodeResponse _ _ _, .malformed => true
  | .decodeResponse _ _ verify, .corrupt => verify
  | .verifyChecksum _, .malformed => true
  | .decodeAbsAngle _, .malformed => true
  | .decodeCalAngle _, .malformed => true
  | .decodeStatus _, .malformed => true
  | .eepWrite _ _, .payloadTooLarge => true
  | .eepRead _ _, .payloadTooLarge => true
  | .ramWrite _ _, .payloadTooLarge => true
  | .ramRead _ _, .payloadTooLarge => true
  | .iJog _ _, .payloadTooLarge => true
  | .sJog _ _, .payloadTooLarge => true
  | .stat _ _, .payloadTooLarge => true
  | .rollback _ _, .payloadTooLarge => true
  | .reboot _ _, .payloadTooLarge => true
  | .statResponse _ _ _ _ _ _, .corrupt => p.verifyDefault
  | .ramReadResponse2 _ _ _ _ _ _ _ _ _ _, .corrupt => p.verifyDefault
  | .runMotion _ _, .payloadTooLarge => true
  | .sJogRunMotion _ _, .payloadTooLarge => true
  | i, .invalidArgument => writesTransport i
  | i, .transportError => writesTransport i
  | i, .malformed => decide (0 < responseLen i)
  | i, .corrupt => decide (0 < responseLen i) && p.verifyDefault
  | _, .payloadTooLarge => false

/-- Every output port of R11 without value, but the ERR code. -/
def onlyErr (code : BitVec 3) : Ports := ⟨code, none, none, none, none, none, none, none, none, none, none, none, none, none⟩

namespace Machine

/-- The transport after one write that put `bytes` on TX (R31). -/
def Transport.wrote (t : Transport) (bytes : Bytes) : Transport :=
  { t with tx := t.tx ++ bytes, writes := t.writes.tail, nWrites := t.nWrites + 1 }

/-- The transport after one read that took `n` bytes from the front of RX (R32). -/
def Transport.lost (t : Transport) (n : Nat) : Transport :=
  { t with rx := t.rx.drop n, reads := t.reads.tail, nReads := t.nReads + 1 }

/-- The response a read takes: RX holds `b` next, and the environment lets a read of it return. -/
abbrev State.Delivers (s : State) (b : Bytes) : Prop := s.th.nextRead.ending = .returns ∧ b <+: s.th.rx

/-- With verification on, only a frame whose checksums are right; with it off, any frame. -/
def State.Accepts (s : State) (b : Bytes) : Prop := s.params.verifyDefault = true → ChecksumsRight b

/-- The instruction ends with `InvalidArgument` and nothing else changes (R151, R162). -/
def RefusesArgument (s : State) (i : Instr) : Prop := exec i s = .next { s with ret := some (.error .invalidArgument) }

/-- Phase 3 of R130 where the write of the frame does not succeed: it fails and the operation ends with `TransportError`, or
it never returns and the operation does not end (R22, log 22); a prefix of the frame is on TX. -/
def WriteStops (s : State) (i : Instr) (f : Bytes) : Prop :=
  (∀ k, s.th.nextWrite = .failure k →
    exec i s = .next { s with th := s.th.wrote (f.take k), ret := some (.error .transportError), ghostFault := true }) ∧
  (∀ k, s.th.nextWrite = .never k →
    exec i s = .next { s with busy := true, th := s.th.wrote (f.take k), ret := none })

/-- Phases 3 and 6 of R130 for one frame and no response: success, or a write that does not succeed. -/
def EmissionEnds (s : State) (i : Instr) (f : Bytes) : Prop :=
  (s.th.nextWrite = .success → exec i s = .next { s with th := s.th.wrote f, ret := some (.ok .unit) }) ∧
  WriteStops s i f

/-- Phases 3 to 6 of R130 for one request and a response of `n` bytes, case by case: the write does not succeed; the read fails;
the read never returns; the bytes are no frame; their checksums are wrong and verification is on; or they are decoded, to a
value that `result` allows. -/
def ExchangeEnds (s : State) (i : Instr) (f : Bytes) (n : Nat) (result : Bytes → Value → Prop) : Prop :=
  WriteStops s i f ∧
  (s.th.nextWrite = .success →
    (s.th.nextRead.ending = .fails → ∃ k, k ≤ n ∧
      exec i s =
        .next { s with th := (s.th.wrote f).lost k, ret := some (.error .transportError), ghostFault := true }) ∧
    ((s.th.nextRead.ending = .never ∨ (s.th.nextRead.ending = .returns ∧ s.th.rx.length < n)) → ∃ k,
      exec i s = .next { s with busy := true, th := (s.th.wrote f).lost k, ret := none }) ∧
    (∀ b, s.Delivers b → b.length = n →
      (¬Framed b →
        exec i s =
          .next { s with th := (s.th.wrote f).lost n, ret := some (.error .malformed), ghostFault := true }) ∧
      (Framed b → ¬s.Accepts b →
        exec i s = .next { s with th := (s.th.wrote f).lost n, ret := some (.error .corrupt), ghostFault := true }) ∧
      (Framed b → s.Accepts b → ∃ v, result b v ∧
        exec i s = .next { s with th := (s.th.wrote f).lost n, ret := some (.ok v) })))

/-- The two status bytes at offsets 7 and 8 of a 9-byte response (R137). -/
def StatusResult (b : Bytes) (v : Value) : Prop := ∃ se sd, b[7]? = some se ∧ b[8]? = some sd ∧ v = .status ⟨se, sd⟩

/-- A complete frame that `encode_request` has produced (R31). -/
def IsRequestFrame (f : Bytes) : Prop := ∃ motorId command payload, encodeRequest motorId command payload = .ok f

/-- The bytes are complete request frames, one after the other. -/
def WholeFrames (tx : Bytes) : Prop := ∃ fs : List Bytes, (∀ f ∈ fs, IsRequestFrame f) ∧ tx = fs.flatten

/-- The bytes are request frames one after the other, each complete or cut short by a write that did not succeed
(R31). -/
def FramesOrPrefixes (tx : Bytes) : Prop :=
  ∃ fs : List Bytes, (∀ f ∈ fs, ∃ g, IsRequestFrame g ∧ f <+: g) ∧ tx = fs.flatten

/-- The invariant of every run: the TX log holds nothing but request frames and, after writes that did not succeed, prefixes
of them; while every operation has returned and none with `TransportError`, `Malformed` or `Corrupt`, it holds whole
frames only; BUSY is 1 only where an operation has not returned, so that there is no result and the script still has that
operation; `opi` is within the script. -/
structure State.Inv (s : State) : Prop where
  sent : FramesOrPrefixes s.th.tx
  whole : s.busy = false → s.ghostFault = false → WholeFrames s.th.tx
  noResult : s.busy = true → s.ret = none
  unfinished : s.busy = true → s.opi < s.script.length
  inScript : s.opi ≤ s.script.length

end Machine

end Sys2Proof
end

