-- ==== Sys2Proof/Certificates/Slice0/Obligations.lean ====
section
/-! DEFINITION. The statements for the provers, one definition each, from the numbered rules of spec/. Frames, checksums
and checks are written with the rules' own numbers (Safety.lean). A next state is written as the old state with the
changed fields named, so each such statement is also the instruction's frame. -/

open Sys2Proof Sys2Proof.Machine

/-! ## CSG -/

/-- R80, R81, R86: `csum` returns the two checksums of whatever operands it is given, and changes nothing else. -/
def Obligations.CsumReturnsBothChecksums : Prop :=
  ∀ (s : State) (size id cmd : Byte) (p : Bytes), s.busy = false →
    exec (.csum size id cmd p) s =
      .next { s with ret := some (.ok (.checksums (ruleChecksum1 size id cmd p) (ruleChecksum2 size id cmd p))) }

/-- R82: the eight laws of every output of `csum`, and that the two bytes differ (R81). Laws 4 to 8 are the spec's own
derivations. -/
def Obligations.ChecksumLawsHoldForEveryOutput : Prop :=
  ∀ (s t : State) (size id cmd c1 c2 : Byte) (p : Bytes),
    exec (.csum size id cmd p) s = .next t → t.ret = some (.ok (.checksums c1 c2)) →
      c2 = ~~~c1 &&& 0xFE ∧ c1.getLsbD 0 = false ∧ c2.getLsbD 0 = false ∧ c1 ^^^ c2 = 0xFE ∧
      c1 &&& c2 = 0x00 ∧ c1 ||| c2 = 0xFE ∧ c1.toNat + c2.toNat = 254 ∧
      c1.toNat % 2 = 0 ∧ c2.toNat % 2 = 0 ∧ c1 = ~~~c2 &&& 0xFE ∧ c1 ≠ c2

/-- R83, which the spec derives: the fold does not depend on order or grouping, and a byte that appears twice cancels. -/
def Obligations.FoldIsIndependentOfOrderAndGrouping : Prop :=
  fold [] = 0 ∧
  (∀ a b : Bytes, fold (a ++ b) = fold a ^^^ fold b) ∧
  (∀ a b : Bytes, a.Perm b → fold a = fold b) ∧
  (∀ (x : Byte) (a : Bytes), fold (x :: x :: a) = fold a) ∧
  (∀ (size id cmd : Byte) (p : Bytes), p.foldl (· ^^^ ·) (size ^^^ id ^^^ cmd) = size ^^^ id ^^^ cmd ^^^ fold p)

/-- R84, which the spec derives: the checksums ignore bit 0 of every covered byte, and see a change of any
other bit of one covered byte. -/
def Obligations.ChecksumsCoverAllButBitZero : Prop :=
  (∀ (size size' id id' cmd cmd' : Byte) (p p' : Bytes),
    size &&& 0xFE = size' &&& 0xFE → id &&& 0xFE = id' &&& 0xFE → cmd &&& 0xFE = cmd' &&& 0xFE →
    p.map (· &&& 0xFE) = p'.map (· &&& 0xFE) → csum size id cmd p = csum size' id' cmd' p') ∧
  (∀ (size id cmd x x' : Byte) (p q : Bytes), x &&& 0xFE ≠ x' &&& 0xFE →
    (csum size id cmd (p ++ x :: q)).1 ≠ (csum size id cmd (p ++ x' :: q)).1 ∧
    (csum x id cmd p).1 ≠ (csum x' id cmd p).1 ∧
    (csum size x cmd p).1 ≠ (csum size x' cmd p).1 ∧
    (csum size id x p).1 ≠ (csum size id x' p).1)

/-! ## FRM -/

/-- R90, R91, R53: `encode_request`, for every operand. A command outside the closed set is `InvalidArgument` whatever the
payload; else a payload of more than 248 bytes is `PayloadTooLarge`; else the frame is built, with any motor_id. Nothing
else changes. Which error comes first is the spec's decision D25 (log 21). -/
def Obligations.EncodeRequestFramesOrRefuses : Prop :=
  ∀ (s : State) (id cmd : Byte) (p : Bytes), s.busy = false →
    (0x01 ≤ cmd.toNat → cmd.toNat ≤ 0x09 → p.length ≤ 248 →
      exec (.encodeRequest id cmd p) s = .next { s with ret := some (.ok (.packet (wireFrame id cmd p))) }) ∧
    ((cmd.toNat < 0x01 ∨ 0x09 < cmd.toNat) → RefusesArgument s (.encodeRequest id cmd p)) ∧
    (0x01 ≤ cmd.toNat → cmd.toNat ≤ 0x09 → 248 < p.length →
      exec (.encodeRequest id cmd p) s = .next { s with ret := some (.error .payloadTooLarge) })

/-- R52, R93: each of the nine wire commands is framed with its own code and the caller's payload, which the framer does
not look inside. The codes are the spec's decision D3 (log 17) and the opaque payload is D35. (That a row's meaning is
this framing is the model's reading: log 10.) -/
def Obligations.NineWireCommandsAreFramedWithTheirCodes : Prop :=
  ∀ (s : State) (id : Byte) (p : Bytes), s.busy = false →
    let framed (code : Byte) : Result Value :=
      if p.length ≤ 248 then .ok (.packet (wireFrame id code p)) else .error .payloadTooLarge
    exec (.eepWrite id p) s = .next { s with ret := some (framed 0x01) } ∧
    exec (.eepRead id p) s = .next { s with ret := some (framed 0x02) } ∧
    exec (.ramWrite id p) s = .next { s with ret := some (framed 0x03) } ∧
    exec (.ramRead id p) s = .next { s with ret := some (framed 0x04) } ∧
    exec (.iJog id p) s = .next { s with ret := some (framed 0x05) } ∧
    exec (.sJog id p) s = .next { s with ret := some (framed 0x06) } ∧
    exec (.stat id p) s = .next { s with ret := some (framed 0x07) } ∧
    exec (.rollback id p) s = .next { s with ret := some (framed 0x08) } ∧
    exec (.reboot id p) s = .next { s with ret := some (framed 0x09) }

/-- R92: the eight properties of every `Ok` result of `encode_request`; the decoder inverts the framer. Properties 6 to 8
are the spec's own derivations. -/
def Obligations.DecoderInvertsFramer : Prop :=
  ∀ (id cmd : Byte) (p f : Bytes), encodeRequest id cmd p = .ok f →
    f.length = 7 + p.length ∧ (f[2]?).map BitVec.toNat = some f.length ∧
    f[0]? = some 0xFF ∧ f[1]? = some 0xFF ∧
    f[3]? = some id ∧ f[4]? = some cmd ∧ f.drop 7 = p ∧
    (∃ c1 c2 : Byte, f[5]? = some c1 ∧ f[6]? = some c2 ∧
      c2 = ~~~c1 &&& 0xFE ∧ c1.getLsbD 0 = false ∧ c2.getLsbD 0 = false ∧ c1 ^^^ c2 = 0xFE ∧
      c1 &&& c2 = 0x00 ∧ c1 ||| c2 = 0xFE ∧ c1.toNat + c2.toNat = 254 ∧
      c1.toNat % 2 = 0 ∧ c2.toNat % 2 = 0 ∧ c1 = ~~~c2 &&& 0xFE ∧
      decodeResponse f (BitVec.ofNat 8 p.length) true =
        .ok ⟨BitVec.ofNat 8 (7 + p.length), id, cmd, c1, c2, p⟩) ∧
    decodeHeader f = .ok (id, cmd, BitVec.ofNat 8 (7 + p.length)) ∧
    verifyChecksum f = .ok true ∧
    (∀ (id' cmd' : Byte) (p' : Bytes), encodeRequest id' cmd' p' = .ok f → id' = id ∧ cmd' = cmd ∧ p' = p)

/-- R94: `marshal_ram_write`. The form for more than one data byte is the spec's decision D35 (log 17). -/
def Obligations.MarshalRamWriteLaysOutThePayload : Prop :=
  ∀ (s : State) (reg : Byte) (data : Bytes), s.busy = false →
    exec (.marshalRamWrite reg data) s =
      .next { s with ret := some (if data.length ≤ 246 then .ok (.payload (reg :: BitVec.ofNat 8 data.length :: data))
        else .error .payloadTooLarge) }

/-- R95: `marshal_ram_read` refuses nothing. -/
def Obligations.MarshalRamReadLaysOutThePayload : Prop :=
  ∀ (s : State) (reg len : Byte), s.busy = false →
    exec (.marshalRamRead reg len) s = .next { s with ret := some (.ok (.payload [reg, len])) }

/-- R97, R98, R58: `marshal_sjog`, for every operand. The first `count` entries are laid out: the time is the first
entry's, every entry's four bytes stand in order, the address is the first entry's; entries beyond `count` are not
examined. Else `InvalidArgument`, before `PayloadTooLarge`. The ranges and the order of errors are the spec's decisions
D5, D10, D11, D25; a colour or mode byte that is no code is refused by D30 (logs 13, 21). -/
def Obligations.MarshalSjogLaysOutOrRefuses : Prop :=
  ∀ (s : State) (es : List MotionCommand) (count : Nat), s.busy = false →
    (∀ first others rest, es = first :: others ++ rest → count = 1 + others.length → count ≤ 61 →
      (∀ e ∈ first :: others, e.InRange) →
      exec (.marshalSjog es count) s =
        .next { s with ret := some (.ok (.sjog first.motorId (jogPayload first others))) }) ∧
    ((count = 0 ∨ es.length < count ∨ ∃ e ∈ es.take count, ¬e.InRange) → RefusesArgument s (.marshalSjog es count)) ∧
    (62 ≤ count → count ≤ es.length → (∀ e ∈ es.take count, e.InRange) →
      exec (.marshalSjog es count) s = .next { s with ret := some (.error .payloadTooLarge) })

/-- R59: the SET byte of an S_JOG entry within range: bit 1 is the mode, bits 2, 3, 4 the colours, every other bit is 0,
and it is the sum of the two shifted codes, without a carry: one of six values. The colour bits are the spec's decision D8
and the mode codes D9 (log 17). -/
def Obligations.SetByteCarriesModeAndColour : Prop :=
  ∀ e : MotionCommand, e.InRange → ∃ b, e.jog.bytes[2]? = some b ∧
    b.toNat = 2 * e.mode.toNat + 4 * e.led.toNat ∧ b = (e.mode <<< 1) ||| (e.led <<< 2) ∧
    b.getLsbD 0 = false ∧ (b.getLsbD 1 = true ↔ e.mode = 1) ∧ (b.getLsbD 2 = true ↔ e.led = 1) ∧
    (b.getLsbD 3 = true ↔ e.led = 2) ∧ (b.getLsbD 4 = true ↔ e.led = 4) ∧ (∀ k, 5 ≤ k → b.getLsbD k = false) ∧
    b ∈ [(0x04 : Byte), 0x06, 0x08, 0x0A, 0x10, 0x12]

/-! ## DEC -/

/-- R112, R111: `decode_header`. That it tests the framing is the spec's decision D28.
The ghost bit is the model's (log 7). -/
def Obligations.DecodeHeaderReadsThreeFields : Prop :=
  ∀ (s : State) (b : Bytes), s.busy = false →
    (¬ Framed b → exec (.decodeHeader b) s = .next { s with ret := some (.error .malformed), ghostFault := true }) ∧
    (∀ size id cmd c1 c2 p, b = [0xFF, 0xFF, size, id, cmd, c1, c2] ++ p → size.toNat = 7 + p.length →
      exec (.decodeHeader b) s = .next { s with ret := some (.ok (.header id cmd size)) })

/-- R110, R111: `decode_response`, `Malformed` before `Corrupt`, any motor_id and any command byte. The verify bit, the
meaning of the expected length and the order of the errors are the spec's decisions D6, D7, D25 (log 21).
The ghost bit is the model's (log 7). -/
def Obligations.DecodeResponseChecksFramingThenLengthThenChecksums : Prop :=
  ∀ (s : State) (b : Bytes) (epl : Byte) (verify : Bool), s.busy = false →
    ((¬ Framed b ∨ b.length ≠ 7 + epl.toNat) →
      exec (.decodeResponse b epl verify) s = .next { s with ret := some (.error .malformed), ghostFault := true }) ∧
    (Framed b → b.length = 7 + epl.toNat → verify = true → ¬ ChecksumsRight b →
      exec (.decodeResponse b epl verify) s = .next { s with ret := some (.error .corrupt), ghostFault := true }) ∧
    (∀ size id cmd c1 c2 p, b = [0xFF, 0xFF, size, id, cmd, c1, c2] ++ p → size.toNat = 7 + p.length →
      p.length = epl.toNat → (verify = true → ChecksumsRight b) →
      exec (.decodeResponse b epl verify) s = .next { s with ret := some (.ok (.response ⟨size, id, cmd, c1, c2, p⟩)) })

/-- R113: `verify_checksum`; a mismatch is a `false` result, not an error. The ghost bit is the model's (log 7). -/
def Obligations.VerifyChecksumComparesBothBytes : Prop :=
  ∀ (s : State) (b : Bytes), s.busy = false →
    (¬ Framed b → exec (.verifyChecksum b) s = .next { s with ret := some (.error .malformed), ghostFault := true }) ∧
    (Framed b → ChecksumsRight b → exec (.verifyChecksum b) s = .next { s with ret := some (.ok (.verified true)) }) ∧
    (Framed b → ¬ ChecksumsRight b → exec (.verifyChecksum b) s = .next { s with ret := some (.ok (.verified false)) })

/-- R114, R34: `decode_abs_angle`; 16 bits, low byte at offset 9, times 325 exactly, no wrap. The integer form of the angle
and the length bound are the spec's decisions D12 and D23. The ghost bit is the model's (log 7). -/
def Obligations.DecodeAbsAngleIsExactMillidegrees : Prop :=
  ∀ (s : State) (b : Bytes), s.busy = false →
    ((¬ Framed b ∨ b.length < 11) →
      exec (.decodeAbsAngle b) s = .next { s with ret := some (.error .malformed), ghostFault := true }) ∧
    (Framed b → 11 ≤ b.length → ∃ lo hi raw m, b[9]? = some lo ∧ b[10]? = some hi ∧
      raw.toNat = lo.toNat + 256 * hi.toNat ∧ m.toNat = 325 * raw.toNat ∧
      exec (.decodeAbsAngle b) s = .next { s with ret := some (.ok (.absAngle raw m)) })

/-- R115, R11: `decode_cal_angle` keeps the low 10 bits of raw, and carries raw itself for the RAW port. The length bound
of 11 is the spec's decision D23; of a real device the mask is unverified (log 18).
The ghost bit is the model's (log 7). -/
def Obligations.DecodeCalAngleKeepsTenBits : Prop :=
  ∀ (s : State) (b : Bytes), s.busy = false →
    ((¬ Framed b ∨ b.length < 11) →
      exec (.decodeCalAngle b) s = .next { s with ret := some (.error .malformed), ghostFault := true }) ∧
    (Framed b → 11 ≤ b.length → ∃ lo hi raw c, b[9]? = some lo ∧ b[10]? = some hi ∧
      raw.toNat = lo.toNat + 256 * hi.toNat ∧ c.toNat = raw.toNat % 1024 ∧
      exec (.decodeCalAngle b) s = .next { s with ret := some (.ok (.calAngle raw c)) })

/-- R116: `decode_status` reads the last two bytes. That it does so for frames longer than 9 bytes is the spec's decision
D31 (log 17). The ghost bit is the model's (log 7). -/
def Obligations.DecodeStatusReadsTheLastTwoBytes : Prop :=
  ∀ (s : State) (b : Bytes), s.busy = false →
    ((¬ Framed b ∨ b.length < 9) →
      exec (.decodeStatus b) s = .next { s with ret := some (.error .malformed), ghostFault := true }) ∧
    (∀ (a : Bytes) (se sd : Byte), b = a ++ [se, sd] → Framed b → 9 ≤ b.length →
      exec (.decodeStatus b) s = .next { s with ret := some (.ok (.status ⟨se, sd⟩)) })

/-- R119: `status_flags` copies each bit of the two bytes, and `any_set` says whether some bit is set, reserved ones
included (the spec's decision D20). -/
def Obligations.StatusFlagsCopyEveryBit : Prop :=
  ∀ (s : State) (se sd : Byte), s.busy = false →
    ∃ (bits : BitVec 16) (any : Bool),
      exec (.statusFlags se sd) s = .next { s with ret := some (.ok (.flags bits any)) } ∧
      (∀ k, k < 8 → bits.getLsbD k = se.getLsbD k ∧ bits.getLsbD (8 + k) = sd.getLsbD k) ∧
      (any = true ↔ se ≠ 0 ∨ sd ≠ 0)

/-- R117, R118: each named flag is the bit its table gives it. The bit order is the spec's decision D13 (log 17). -/
def Obligations.NamedFlagsAreTheirBits : Prop :=
  ∀ st : Status,
    (∀ f, st.hasError f = st.statusError.getLsbD (match f with
      | .voltage => 0 | .potLimit => 1 | .temperature => 2 | .invalidPacket => 3
      | .overload => 4 | .driverFault => 5 | .eepDistorted => 6 | .reserved => 7)) ∧
    (∀ f, st.hasDetail f = st.statusDetail.getLsbD (match f with
      | .moving => 0 | .inPosition => 1 | .checksumError => 2 | .unknownCommand => 3
      | .regRange => 4 | .garbage => 5 | .motorOn => 6 | .reserved => 7))

/-- R56, R57, R110, R114 to R116: what the decoder makes of the two response layouts, for any motor_id, command and
uninterpreted bytes. (That a RESP row's meaning is this decoding is the model's reading: log 12.)
The ghost bit is the model's (log 7). -/
def Obligations.ResponseRowsAreDecoded : Prop :=
  ∀ (s : State) (id cmd c1 c2 b7 b8 lo hi se sd : Byte), s.busy = false →
    (s.Accepts [0xFF, 0xFF, 9, id, cmd, c1, c2, se, sd] →
      exec (.statResponse id cmd c1 c2 se sd) s =
        .next { s with ret := some (.ok (.statResponse ⟨9, id, cmd, c1, c2, [se, sd]⟩ ⟨se, sd⟩)) }) ∧
    (¬ s.Accepts [0xFF, 0xFF, 9, id, cmd, c1, c2, se, sd] →
      exec (.statResponse id cmd c1 c2 se sd) s =
        .next { s with ret := some (.error .corrupt), ghostFault := true }) ∧
    (s.Accepts [0xFF, 0xFF, 13, id, cmd, c1, c2, b7, b8, lo, hi, se, sd] →
      ∃ raw m c, raw.toNat = lo.toNat + 256 * hi.toNat ∧ m.toNat = 325 * raw.toNat ∧ c.toNat = raw.toNat % 1024 ∧
        exec (.ramReadResponse2 id cmd c1 c2 b7 b8 lo hi se sd) s =
          .next { s with ret := some (.ok (.ramReadResponse ⟨13, id, cmd, c1, c2, [b7, b8, lo, hi, se, sd]⟩ raw m c
            ⟨se, sd⟩)) }) ∧
    (¬ s.Accepts [0xFF, 0xFF, 13, id, cmd, c1, c2, b7, b8, lo, hi, se, sd] →
      exec (.ramReadResponse2 id cmd c1 c2 b7 b8 lo hi se sd) s =
        .next { s with ret := some (.error .corrupt), ghostFault := true })

/-! ## SEQ: operations that await no response -/

/-- R131: `set_led`, for every operand and every outcome of the write. That motor_id 255 is refused is the spec's decision
D5, that every other colour byte is, D30 (log 13); which prefix a failed write leaves is open in R31 (D17, log 2), and that
a write may never return is log 22. The ghost bit is the model's (log 7). -/
def Obligations.SetLedWritesItsFrame : Prop :=
  ∀ (s : State) (id c : Byte), s.busy = false →
    (id ≠ 255 → (c = 1 ∨ c = 2 ∨ c = 4) → EmissionEnds s (.setLed id c) (wireFrame id 0x03 [53, 1, c])) ∧
    ((id = 255 ∨ (c ≠ 1 ∧ c ≠ 2 ∧ c ≠ 4)) → RefusesArgument s (.setLed id c))

/-- R132: `set_acknowledge_policy`, for every operand, every outcome of the write and each value of `REG_ACK_POLICY`. That
no response is awaited is the spec's decision D16; motor_id 255 is D5, a failed write R31 with D17 (log 2), a
write that never returns log 22. The ghost bit is the model's (log 7). -/
def Obligations.SetAcknowledgePolicyWritesItsFrame : Prop :=
  ∀ (s : State) (id v : Byte), s.busy = false →
    (id ≠ 255 → v.toNat ≤ 2 →
      EmissionEnds s (.setAcknowledgePolicy id v) (wireFrame id 0x03 [s.params.regAckPolicy, 1, v])) ∧
    ((id = 255 ∨ 2 < v.toNat) → RefusesArgument s (.setAcknowledgePolicy id v))

/-- R133: `set_control_mode`, for every operand, every outcome of the write and each value of `REG_CONTROL_MODE`. That no
response is awaited is the spec's decision D16; motor_id 255 is D5, a failed write R31 with D17 (log 2), a write
that never returns log 22. The ghost bit is the model's (log 7). -/
def Obligations.SetControlModeWritesItsFrame : Prop :=
  ∀ (s : State) (id m : Byte), s.busy = false →
    (id ≠ 255 → m.toNat ≤ 1 →
      EmissionEnds s (.setControlMode id m) (wireFrame id 0x03 [s.params.regControlMode, 1, m])) ∧
    ((id = 255 ∨ 1 < m.toNat) → RefusesArgument s (.setControlMode id m))

/-- R134, R62: `set_torque` sends the code of its index, for every operand, every outcome of the write and each value of
`REG_TORQUE`. That no response is awaited is the spec's decision D16; motor_id 255 is D5, a failed write R31 with D17
(log 2), a write that never returns log 22. The ghost bit is the model's (log 7). -/
def Obligations.SetTorqueWritesItsFrame : Prop :=
  ∀ (s : State) (id m : Byte), s.busy = false →
    (∀ code : Byte, id ≠ 255 → (m = 0 ∧ code = 0x00 ∨ m = 1 ∧ code = 0x40 ∨ m = 2 ∧ code = 0x60) →
      EmissionEnds s (.setTorque id m) (wireFrame id 0x03 [s.params.regTorque, 1, code])) ∧
    ((id = 255 ∨ 2 < m.toNat) → RefusesArgument s (.setTorque id m))

/-- R139: `run_motion` sends one S_JOG frame that carries every one of the first `count` entries, addressed to the first;
what `marshal_sjog` refuses, it refuses, before any write. The ranges are the spec's decisions D5, D10, D11, a led or mode
byte that is no code is D30 (log 13), `InvalidArgument` first from 62 entries on is D25 (R97, R161, log 21), and that no
response is awaited is D16; a failed write is R31 with D17 (log 2), a write that never returns log 22. The ghost bit is the model's
(log 7). -/
def Obligations.RunMotionWritesItsFrame : Prop :=
  ∀ (s : State) (es : List MotionCommand) (count : Nat), s.busy = false →
    (∀ first others rest, es = first :: others ++ rest → count = 1 + others.length → count ≤ 61 →
      (∀ e ∈ first :: others, e.InRange) →
      EmissionEnds s (.runMotion es count) (wireFrame first.motorId 0x06 (jogPayload first others))) ∧
    ((count = 0 ∨ es.length < count ∨ ∃ e ∈ es.take count, ¬e.InRange) → RefusesArgument s (.runMotion es count)) ∧
    (62 ≤ count → count ≤ es.length → (∀ e ∈ es.take count, e.InRange) →
      exec (.runMotion es count) s = .next { s with ret := some (.error .payloadTooLarge) })

/-- R73: each FRAME_FIXED row puts the frame that its session operation emits on TX, or refuses the operands as that
operation does: for S_JOG.run_motion no entry or one out of range is `InvalidArgument`, and else 62 entries or more are
`PayloadTooLarge` (R97, R139; the order is the spec's decision D25, log 21, the ranges D5, D10, D11, D30, the raw bytes log 13). (That
the row by itself is this emission is the model's reading: log 11; a failed write is R31 with D17, log 2; a write that never
returns is log 22.)
The ghost bit is the model's (log 7). -/
def Obligations.FixedFrameRowsAreEmitted : Prop :=
  ∀ (s : State) (id x time : Byte) (es : List JogEntry), s.busy = false →
    (∀ i ∈ [Instr.ramWriteSetLed id x, .ramWriteSetAcknowledgePolicy id x, .ramWriteSetControlMode id x,
        .ramWriteSetTorque id x, .ramReadGetAbsoluteAngle id, .ramReadGetCalibratedAngle id, .statGetStatus id,
        .ramWriteClearStatus id],
      (∀ f, firstRequest s.params i = some f → EmissionEnds s i f) ∧
      (firstRequest s.params i = none → RefusesArgument s i)) ∧
    (∀ f, firstRequest s.params (.sJogRunMotion time es) = some f → EmissionEnds s (.sJogRunMotion time es) f) ∧
    ((es = [] ∨ ∃ e ∈ es, ¬(e.withTime time).InRange) → RefusesArgument s (.sJogRunMotion time es)) ∧
    (62 ≤ es.length → (∀ e ∈ es, (e.withTime time).InRange) →
      exec (.sJogRunMotion time es) s = .next { s with ret := some (.error .payloadTooLarge) }) ∧
    (es ≠ [] → es.length ≤ 61 → (∀ e ∈ es, (e.withTime time).InRange) →
      (firstRequest s.params (.sJogRunMotion time es)).isSome = true)

/-! ## SEQ: operations that read a response -/

/-- R135: `get_absolute_angle`, for every operand and every choice of the environment: the result is 325 millidegrees for
each unit of the 16-bit value at offsets 9 and 10. motor_id 255 is the spec's decision D5 and the integer angle D12; the
prefix of a failed write and the 0 to n bytes a failed read takes are R31 and R32 with D17 (log 2), a write that never
returns is log 22; what a read that never returns leaves (R189) is the model's choice (log 9). The ghost bit is the model's (log 7). -/
def Obligations.GetAbsoluteAngleReturnsMillidegrees : Prop :=
  ∀ (s : State) (id : Byte), s.busy = false →
    (id = 255 → RefusesArgument s (.getAbsoluteAngle id)) ∧
    (id ≠ 255 → ExchangeEnds s (.getAbsoluteAngle id) (wireFrame id 0x04 [60, 2]) 13 fun b v =>
      ∃ lo hi m, b[9]? = some lo ∧ b[10]? = some hi ∧ m.toNat = 325 * (lo.toNat + 256 * hi.toNat) ∧
        v = .millidegrees m)

/-- R136: `get_calibrated_angle`, for every operand and every choice of the environment; the result is 0 to 1023 whatever
the device sends. motor_id 255 is the spec's decision D5; the prefix of a failed write and the 0 to n bytes a failed read
takes are R31 and R32 with D17 (log 2), a write that never returns is log 22; what a read that never returns leaves (R189)
is the model's choice (log 9). Of a real device the mask is unverified (log 18). The ghost bit is the model's (log 7). -/
def Obligations.GetCalibratedAngleReturnsTenBits : Prop :=
  ∀ (s : State) (id : Byte), s.busy = false →
    (id = 255 → RefusesArgument s (.getCalibratedAngle id)) ∧
    (id ≠ 255 → ExchangeEnds s (.getCalibratedAngle id) (wireFrame id 0x04 [58, 2]) 13 fun b v =>
      ∃ lo hi c, b[9]? = some lo ∧ b[10]? = some hi ∧ c.toNat = (lo.toNat + 256 * hi.toNat) % 1024 ∧
        v = .calibrated c)

/-- R137, R156: `get_status`, for every operand and every choice of the environment; a status is a value, whatever bits
are set. motor_id 255 is the spec's decision D5; the prefix of a failed write and the 0 to n bytes a failed read takes are
R31 and R32 with D17 (log 2), a write that never returns is log 22; what a read that never returns leaves (R189) is the
model's choice (log 9).
The ghost bit is the model's (log 7). -/
def Obligations.GetStatusReturnsBothBytes : Prop :=
  ∀ (s : State) (id : Byte), s.busy = false →
    (id = 255 → RefusesArgument s (.getStatus id)) ∧
    (id ≠ 255 → ExchangeEnds s (.getStatus id) (wireFrame id 0x07 []) 9 StatusResult)

/-- R138: `clear_status` sends the RAM_WRITE that zeroes both status registers and then does exactly what `get_status` does
(whose outcomes GetStatusReturnsBothBytes lists); if that first write does not succeed, nothing else is sent. Where both writes
succeed and an answer arrives, the two frames are on TX and the status read is returned. That both registers are zeroed by
one frame, whose answer is not awaited, is the spec's decision D15, D16 (log 17); motor_id 255 is D5, a failed write R31
with D17 (log 2), a write that never returns log 22. The ghost bit is the model's (log 7). -/
def Obligations.ClearStatusZeroesThenReturnsTheStatus : Prop :=
  ∀ (s : State) (id : Byte), s.busy = false →
    (id = 255 → RefusesArgument s (.clearStatus id)) ∧
    (id ≠ 255 →
      let first := wireFrame id 0x03 [s.params.regStatusError, 2, 0, 0]
      WriteStops s (.clearStatus id) first ∧
      (s.th.nextWrite = .success →
        exec (.clearStatus id) s = exec (.getStatus id) { s with th := s.th.wrote first } ∧
        (∀ b, (s.th.wrote first).nextWrite = .success → s.Delivers b → b.length = 9 → Framed b → s.Accepts b →
          ∃ v, StatusResult b v ∧
            exec (.clearStatus id) s =
              .next { s with th := ((s.th.wrote first).wrote (wireFrame id 0x07 [])).lost 9, ret := some (.ok v) })))

/-- R72: a session operation that awaits no response is its request row; one that does is its row, a read, `decode_response`
with `VERIFY_DEFAULT` and the field decoder; `clear_status` is its row and then `get_status`. (That a row is the write alone is
the model's reading: log 11.) -/
def Obligations.SessionOperationsExpandAsTabled : Prop :=
  (∀ (s : State) (id x : Byte),
    exec (.setLed id x) s = exec (.ramWriteSetLed id x) s ∧
    exec (.setAcknowledgePolicy id x) s = exec (.ramWriteSetAcknowledgePolicy id x) s ∧
    exec (.setControlMode id x) s = exec (.ramWriteSetControlMode id x) s ∧
    exec (.setTorque id x) s = exec (.ramWriteSetTorque id x) s) ∧
  (∀ (s : State) (first : MotionCommand) (others rest : List MotionCommand),
    exec (.runMotion (first :: others ++ rest) (1 + others.length)) s =
      exec (.sJogRunMotion first.timeTicks ((first :: others).map MotionCommand.jog)) s) ∧
  ∀ (s t : State) (id : Byte) (b : Bytes), t.ret = some (.ok .unit) →
    (exec (.ramWriteClearStatus id) s = .next t → exec (.clearStatus id) s = exec (.getStatus id) t) ∧
    (s.Delivers b → b.length = 13 → exec (.ramReadGetAbsoluteAngle id) s = .next t →
      exec (.getAbsoluteAngle id) s = .next (State.finish { t with th := t.th.lost 13 } (do
        let _ ← decodeResponse b 6 s.params.verifyDefault
        let r ← decodeAbsAngle b
        pure (.millidegrees r.2)))) ∧
    (s.Delivers b → b.length = 13 → exec (.ramReadGetCalibratedAngle id) s = .next t →
      exec (.getCalibratedAngle id) s = .next (State.finish { t with th := t.th.lost 13 } (do
        let _ ← decodeResponse b 6 s.params.verifyDefault
        let c ← decodeCalAngle b
        pure (.calibrated c)))) ∧
    (s.Delivers b → b.length = 9 → exec (.statGetStatus id) s = .next t →
      exec (.getStatus id) s = .next (State.finish { t with th := t.th.lost 9 } (do
        let _ ← decodeResponse b 2 s.params.verifyDefault
        let st ← decodeStatus b
        pure (.status st))))

/-! ## Errors and their effect on state -/

/-- R151: every case of `InvalidArgument`; neither stream changes and BUSY is 0 on return. The ranges of motor_id, target
and count are the spec's decisions D5, D10, D11, the raw bytes of the enumerations D30 (log 13). -/
def Obligations.InvalidArgumentLeavesNoTrace : Prop :=
  ∀ (s : State) (id x : Byte) (p : Bytes) (es : List MotionCommand) (count : Nat), s.busy = false →
    let refused (i : Instr) : Prop := RefusesArgument s i
    ((x.toNat < 1 ∨ 9 < x.toNat) → refused (.encodeRequest id x p)) ∧
    ((id = 255 ∨ (x ≠ 1 ∧ x ≠ 2 ∧ x ≠ 4)) → refused (.setLed id x)) ∧
    ((id = 255 ∨ 2 < x.toNat) → refused (.setAcknowledgePolicy id x)) ∧
    ((id = 255 ∨ 1 < x.toNat) → refused (.setControlMode id x)) ∧
    ((id = 255 ∨ 2 < x.toNat) → refused (.setTorque id x)) ∧
    (id = 255 → refused (.getAbsoluteAngle id) ∧ refused (.getCalibratedAngle id) ∧ refused (.getStatus id) ∧
      refused (.clearStatus id)) ∧
    ((count = 0 ∨ es.length < count ∨ ∃ e ∈ es.take count, ¬ e.InRange) →
      refused (.marshalSjog es count) ∧ refused (.runMotion es count))

/-- R152: every case of `PayloadTooLarge`, raised before any transport call; it is in the `InvalidArgument` class, which
is codes 1 and 2. The class is the spec's resolution C4, the code numbers its decision D4, the bound of 62 entries D11. -/
def Obligations.PayloadTooLargeLeavesNoTrace : Prop :=
  (∀ (s : State) (id x : Byte) (p : Bytes) (es : List MotionCommand) (count : Nat), s.busy = false →
    let refused (i : Instr) : Prop := exec i s = .next { s with ret := some (.error .payloadTooLarge) }
    (1 ≤ x.toNat → x.toNat ≤ 9 → 248 < p.length → refused (.encodeRequest id x p)) ∧
    (246 < p.length → refused (.marshalRamWrite x p)) ∧
    (62 ≤ count → count ≤ es.length → (∀ e ∈ es.take count, e.InRange) →
      refused (.marshalSjog es count) ∧ refused (.runMotion es count))) ∧
  (∀ e : Err, e.inInvalidArgumentClass = true ↔ e.code = 1 ∨ e.code = 2)

/-- R31, R162: a failed first write ends every writing instruction with `TransportError`; TX has gained a prefix of the
frame, RX is unchanged, BUSY is 0. That any prefix may go out is R31 with the spec's decision D17 (log 2).
The ghost bit is the model's (log 7). -/
def Obligations.FailedWriteSendsOnlyAPrefix : Prop :=
  ∀ (s : State) (i : Instr) (f : Bytes) (k : Nat), s.busy = false → firstRequest s.params i = some f →
    s.th.nextWrite = .failure k →
    exec i s =
      .next { s with th := s.th.wrote (f.take k), ret := some (.error .transportError), ghostFault := true }

/-- R162: what has happened when an error is reported. BUSY is 0. A codec operation has touched neither stream. After
`InvalidArgument` and `PayloadTooLarge` neither stream has changed. After `TransportError` of a write TX has gained a prefix
of what the instruction sends and RX is unchanged; after `TransportError` of a read TX has gained all of it and RX has lost
at most n bytes. After `Malformed` and `Corrupt` TX has gained all of it and RX has lost exactly n bytes. The spec
derives this from R130, R31 and R32. -/
def Obligations.ErrorsLeaveTheTabledEffect : Prop :=
  ∀ (s t : State) (i : Instr) (e : Err), exec i s = .next t → t.ret = some (.error e) →
    t.busy = false ∧
    (isCodec i = true → t.th = s.th) ∧
    ((e = .invalidArgument ∨ e = .payloadTooLarge) → t.th = s.th) ∧
    (e = .transportError → ∃ f, requestBytes s.params i = some f ∧
      ((∃ g, g <+: f ∧ t.th.tx = s.th.tx ++ g ∧ t.th.rx = s.th.rx) ∨
       (∃ k, t.th.tx = s.th.tx ++ f ∧ k ≤ responseLen i ∧ t.th.rx = s.th.rx.drop k))) ∧
    (writesTransport i = true → (e = .malformed ∨ e = .corrupt) → ∃ f, requestBytes s.params i = some f ∧
      t.th.tx = s.th.tx ++ f ∧ responseLen i ≤ s.th.rx.length ∧ t.th.rx = s.th.rx.drop (responseLen i))

/-- R189, R32: a read that never gets its bytes leaves the operation unfinished: everything it sends is on TX, BUSY is 1,
there is no result, and no later step runs anything. (That the script's index stays is the model's choice: log 9.) -/
def Obligations.BlockedReadHangsForEver : Prop :=
  ∀ (s : State) (e : Entry) (i : Instr) (f : Bytes), s.busy = false → 0 < responseLen i →
    requestBytes s.params i = some f → s.nextEntry = some e → decode s.params e = .ok i →
    s.th.nextWrite = .success → (∀ id, i = .clearStatus id → (s.th.wrote []).nextWrite = .success) →
    (s.th.nextRead.ending = .never ∨ (s.th.nextRead.ending = .returns ∧ s.th.rx.length < responseLen i)) →
    ∃ t, step s = .next t ∧ t.busy = true ∧ t.ret = none ∧ t.opi = s.opi ∧ t.th.tx = s.th.tx ++ f ∧
      t.th.rx <:+ s.th.rx ∧ step t = .refused .busy

/-- R22, R14: a write that never returns leaves the operation unfinished: some prefix of the frame is on TX (of the second
frame, after the first, where it is the second write of `clear_status`), RX is as it was, BUSY is 1, there is no result, and no
later step runs anything. R31 says that whether a write can block "is not said": that it may, and what it leaves, is the
model's choice (log 22), and so is the index (log 9). -/
def Obligations.BlockedWriteHangsForEver : Prop :=
  ∀ (s : State) (e : Entry) (i : Instr) (f sent : Bytes), s.busy = false → firstRequest s.params i = some f →
    s.nextEntry = some e → decode s.params e = .ok i →
    ((∃ k, s.th.nextWrite = .never k ∧ sent = f.take k) ∨
     (∃ id k, i = .clearStatus id ∧ s.th.nextWrite = .success ∧ (s.th.wrote f).nextWrite = .never k ∧
       sent = f ++ (wireFrame id 0x07 []).take k)) →
    ∃ t, step s = .next t ∧ t.busy = true ∧ t.ret = none ∧ t.opi = s.opi ∧ t.th.tx = s.th.tx ++ sent ∧
      t.th.rx = s.th.rx ∧ step t = .refused .busy

/-- R157, which the spec derives: an instruction ends only with the errors its row of the table allows. What the table
allows a FRAME, FRAME_FIXED or RESP row is the model's reading (logs 10, 11, 12). -/
def Obligations.OnlyTabledErrorsOccur : Prop :=
  ∀ (s t : State) (i : Instr) (e : Err), exec i s = .next t → t.ret = some (.error e) → canEndWith s.params i e = true

/-- R150: the ERR port is 0 for Ok and the error's code otherwise; codes 6 and 7 are never produced. The numbers are the
spec's decision D4. -/
def Obligations.ErrPortGivesTheCode : Prop :=
  ∀ r : Result Value,
    (portsOf r).err.toNat ≤ 5 ∧
    (portsOf r).err = (match r with
      | .ok _ => 0
      | .error .invalidArgument => 1
      | .error .payloadTooLarge => 2
      | .error .transportError => 3
      | .error .malformed => 4
      | .error .corrupt => 5)

/-- R11: which output ports each result drives, and that every other port has no value; while there is no result, no port
has one (R23). The 8-bit length on PKTLEN is the frame's. That a session read drives only the port of the value it returns,
and that a response row drives the ports of every decoder it stands for, is the model's choice (logs 6, 12). -/
def Obligations.OutputPortsCarryTheResult : Prop :=
  ∀ s : State,
    (s.ret = none → s.ports = none) ∧
    (∀ e, s.ret = some (.error e) → s.ports = some (onlyErr e.code)) ∧
    (∀ v, s.ret = some (.ok v) → s.ports = some (match v with
      | .unit => onlyErr 0
      | .checksums c1 c2 => { onlyErr 0 with cs1 := some c1, cs2 := some c2 }
      | .packet f => { onlyErr 0 with pkt := some f, pktLen := some (BitVec.ofNat 8 f.length) }
      | .payload _ => onlyErr 0
      | .sjog _ _ => onlyErr 0
      | .header id cmd size => { onlyErr 0 with rSize := some size, rId := some id, rCmd := some cmd }
      | .response ⟨size, id, cmd, c1, c2, p⟩ =>
        { onlyErr 0 with
          cs1 := some c1, cs2 := some c2, rSize := some size, rId := some id, rCmd := some cmd, rPay := some p }
      | .verified _ => onlyErr 0
      | .absAngle raw m => { onlyErr 0 with raw := some raw, angMdeg := some m }
      | .millidegrees m => { onlyErr 0 with angMdeg := some m }
      | .calAngle raw c => { onlyErr 0 with raw := some raw, cal := some c }
      | .calibrated c => { onlyErr 0 with cal := some c }
      | .status ⟨se, sd⟩ => { onlyErr 0 with serr := some se, sdet := some sd }
      | .flags _ _ => onlyErr 0
      | .statResponse ⟨size, id, cmd, c1, c2, p⟩ ⟨se, sd⟩ =>
        { onlyErr 0 with
          cs1 := some c1, cs2 := some c2, rSize := some size, rId := some id, rCmd := some cmd, rPay := some p,
          serr := some se, sdet := some sd }
      | .ramReadResponse ⟨size, id, cmd, c1, c2, p⟩ raw m c ⟨se, sd⟩ =>
        { onlyErr 0 with
          cs1 := some c1, cs2 := some c2, rSize := some size, rId := some id, rCmd := some cmd, rPay := some p,
          raw := some raw, angMdeg := some m, cal := some c, serr := some se, sdet := some sd }))

/-! ## The machine -/

/-- R10, R162: a codec operation returns a result and touches neither stream nor BUSY nor anything else.
The ghost bit is the model's (log 7). -/
def Obligations.CodecOperationsTouchNothing : Prop :=
  ∀ (s : State) (i : Instr), isCodec i = true → s.busy = false →
    ∃ r g, exec i s = .next { s with ret := some r, ghostFault := g }

/-- R43, R15, R16: no instruction rewrites TX or anything but the front of RX; one that awaits no response leaves RX as it
is; parameters, script and index are never touched. -/
def Obligations.StreamsOnlyGrowAndShrink : Prop :=
  ∀ (s t : State) (i : Instr), exec i s = .next t →
    s.th.tx <+: t.th.tx ∧ t.th.rx <:+ s.th.rx ∧ (responseLen i = 0 → t.th.rx = s.th.rx) ∧
    (isCodec i = true → t.th = s.th) ∧ t.params = s.params ∧ t.script = s.script ∧ t.opi = s.opi

/-- R14, R186: an operation issued while BUSY is 1 is given no step (the spec's decision D26). That this holds of codec
operations too is the model's reading (log 8). -/
def Obligations.BusyRefusesEveryOperation : Prop :=
  ∀ (s : State) (i : Instr), s.busy = true → exec i s = .refused .busy

/-- R150, R163: an operation issued while BUSY is 0 is never fatal: every instruction, with any operands and against any
environment, answers a next state. It has returned with a result or an error, or a transport call of it never returns: a
read (R189; the next state is log 9), or a write (R22, log 22). -/
def Obligations.EveryOperationRunsWhenIdle : Prop :=
  ∀ (s : State) (i : Instr), s.busy = false →
    ∃ t, exec i s = .next t ∧
      ((t.busy = false ∧ t.ret.isSome = true) ∨
       (t.busy = true ∧ t.ret = none ∧ writesTransport i = true ∧ (0 < responseLen i ∨ ∃ k, s.th.nextWrite = .never k)))

/-- R163, R13: no error is sticky and nothing is remembered: what an operation does depends on the streams and the
parameters alone, not on earlier results. -/
def Obligations.EarlierResultsHaveNoEffect : Prop :=
  ∀ (s s' t : State) (i : Instr), s.busy = s'.busy → s.th = s'.th → s.params = s'.params →
    exec i s = .next t → ∃ t', exec i s' = .next t' ∧ t'.th = t.th ∧ t'.busy = t.busy ∧ t'.ret = t.ret

/-- R12: one step takes the entry at `opi`, runs the instruction it decodes to, and raises `opi` by one where the operation
has returned, with Ok or with an error; where it has not, `opi` stays (the model's choice: log 9). At the end of the script
there is no step. -/
def Obligations.StepRunsTheDecodedInstruction : Prop :=
  ∀ s : State,
    (s.nextEntry = none → step s = .fault .scriptEnded) ∧
    (∀ e i t, s.nextEntry = some e → decode s.params e = .ok i → exec i s = .next t →
      step s = .next (if t.busy then t else { t with opi := t.opi + 1 })) ∧
    (∀ e i r, s.nextEntry = some e → decode s.params e = .ok i → exec i s = .refused r → step s = .refused r)

/-- R46, R12: the script and the parameters never change, and `opi` moves by one or, while a transport call blocks, not
at all (the model's choice: log 9). -/
def Obligations.ScriptIsImmutableAndIndexAdvances : Prop :=
  ∀ s t : State, step s = .next t →
    t.script = s.script ∧ t.params = s.params ∧ (t.busy = false → t.opi = s.opi + 1) ∧ (t.busy = true → t.opi = s.opi)

/-- R70: an OPSEL value outside the table selects nothing, whatever follows it: no step. The codes are the spec's decision
D2; that `opi` does not pass such an entry is the model's choice (log 20). -/
def Obligations.UnknownOpselIsRefused : Prop :=
  ∀ (s : State) (opsel : Byte) (b : Bytes), s.nextEntry = some (.op (opsel :: b)) →
    (opsel.toNat ∈ [5, 6, 7, 15] ∨ 24 < opsel.toNat) → step s = .refused (.undecodable .unknownOpsel)

/-- Words written out from the spec's encodings decode to the instructions they stand for: operations by OPSEL (R70),
request frames (95 V-F4d, V-Q1, V-Q32, S3) and responses (95 S3, S4, S5). The tags of the entries and the places of the
operands after OPSEL are the model's (log 5). -/
def Obligations.SpecWordsDecode : Prop :=
  ∀ p : Config.Params,
    decode p (.op [0x10, 0x01, 0x04]) = .ok (.setLed 1 4) ∧
    decode p (.op [0x03, 0x3C, 0x02]) = .ok (.marshalRamRead 60 2) ∧
    decode p (.op [0x00, 0x09, 0x01, 0x04, 0x3C, 0x02]) = .ok (.csum 9 1 4 [60, 2]) ∧
    decode p (.op [0x0E, 0x12, 0x44]) = .ok (.statusFlags 0x12 0x44) ∧
    decode p (.frame [0xFF, 0xFF, 0x07, 0x01, 0x07, 0x00, 0xFE]) = .ok (.stat 1 []) ∧
    decode p (.frame [0xFF, 0xFF, 0x09, 0x01, 0x04, 0x32, 0xCC, 0x3C, 0x02]) = .ok (.ramRead 1 [60, 2]) ∧
    decode p (.emit 0x14 [0xFF, 0xFF, 0x09, 0x01, 0x04, 0x32, 0xCC, 0x3C, 0x02]) = .ok (.ramReadGetAbsoluteAngle 1) ∧
    decode p (.emit 0x10 [0xFF, 0xFF, 0x0A, 0x01, 0x03, 0x38, 0xC6, 0x35, 0x01, 0x04]) = .ok (.ramWriteSetLed 1 4) ∧
    decode p (.emit 0x18 [0xFF, 0xFF, 0x0C, 0x01, 0x06, 0xD2, 0x2C, 0x3C, 0x01, 0xF4, 0x10, 0x01]) =
      .ok (.sJogRunMotion 60 [⟨500, 4, 0, 1⟩]) ∧
    decode p (.resp [0xFF, 0xFF, 0x09, 0x01, 0x47, 0x4E, 0xB0, 0x01, 0x00]) =
      .ok (.statResponse 1 0x47 0x4E 0xB0 1 0) ∧
    decode p (.resp [0xFF, 0xFF, 0x0D, 0x01, 0x44, 0xDC, 0x22, 0x3C, 0x02, 0xE8, 0x03, 0x00, 0x40]) =
      .ok (.ramReadResponse2 1 0x44 0xDC 0x22 0x3C 0x02 0xE8 0x03 0x00 0x40) ∧
    decode p (.resp [0xFF, 0xFF, 0x0D, 0x01, 0x44, 0x30, 0xCE, 0x3A, 0x02, 0xFF, 0xFF, 0x00, 0x40]) =
      .ok (.ramReadResponse2 1 0x44 0x30 0xCE 0x3A 0x02 0xFF 0xFF 0x00 0x40)

/-- Decoding the encoding of a well-formed instruction gives it back, with every operand (the tags and operand records are
the model's: log 5). -/
def Obligations.DecodeInvertsEncode : Prop :=
  ∀ (p : Config.Params) (i : Instr), WellFormed i = true → decode p (encode p i) = .ok i

/-- Every entry the decoder accepts is the encoding of the well-formed instruction it reads: no two entries stand for one
instruction and no bit of an entry is dropped. The tags and operand records are the model's (log 5), and so is the refusal of
bytes that are no right frame of their row (log 15). -/
def Obligations.EncodeInvertsDecode : Prop :=
  ∀ (p : Config.Params) (e : Entry) (i : Instr), decode p e = .ok i → WellFormed i = true ∧ encode p i = e

/-- The invariant of every run is kept by every step (State.Inv, Safety.lean; R31, R33, R189). Its clauses about the
ghost bit, the result and the index are the model's choice (logs 4, 6, 7, 9). -/
def Obligations.EveryStepKeepsTheInvariant : Prop :=
  ∀ s t : State, s.Inv → step s = .next t → t.Inv

/-- The machine right after reset has the invariant; its empty script is the model's choice (log 4). -/
def Obligations.ResetHasTheInvariant : Prop := State.reset.Inv

/-- R23, R180: the creation of a session gives BUSY 0, an empty TX log, no port value and index 0; RX is whatever the line
holds; the machine right after reset has these values (the spec's decision D18). -/
def Obligations.SessionCreationGivesTheResetState : Prop :=
  (∀ (th : Transport) (params : Config.Params) (script : List Entry),
    let s := State.create th params script
    s.busy = false ∧ s.th.tx = [] ∧ s.th.rx = th.rx ∧ s.ports = none ∧ s.opi = 0) ∧
  State.reset.busy = false ∧ State.reset.th.tx = [] ∧ State.reset.ports = none ∧ State.reset.opi = 0
end

