-- ==== Sys2Proof/Laws/Codec.lean ====
section
/-! SUPPORT. Small lemmas of the codec's helper functions. -/

namespace Sys2Proof

@[simp] theorem fold_nil : fold [] = 0 := rfl

/-- A left fold of XOR from any start. -/
theorem foldl_xor_start (p : Bytes) (a : Byte) : p.foldl (· ^^^ ·) a = a ^^^ fold p := by
  unfold fold
  induction p generalizing a with
  | nil => simp
  | cons x xs ih =>
    rw [List.foldl_cons, List.foldl_cons, ih (a ^^^ x), ih (0 ^^^ x), show (0 : Byte) ^^^ x = x from BitVec.zero_xor,
      BitVec.xor_assoc]

@[simp] theorem fold_cons (x : Byte) (p : Bytes) : fold (x :: p) = x ^^^ fold p := by
  have h : fold (x :: p) = p.foldl (· ^^^ ·) ((0 : Byte) ^^^ x) := rfl
  rw [h, foldl_xor_start, show (0 : Byte) ^^^ x = x from BitVec.zero_xor]

@[simp] theorem length_frameBytes (id cmd : Byte) (p : Bytes) : (frameBytes id cmd p).length = 7 + p.length := by
  simp [frameBytes]
  omega

/-- The two halves of a 16-bit value put together give it back. -/
@[simp] theorem wordOf_highByte_lowByte (v : U16) : wordOf (highByte v) (lowByte v) = v := by
  ext k hk
  simp only [wordOf, highByte, lowByte, BitVec.getElem_or, BitVec.getElem_shiftLeft, BitVec.getElem_setWidth,
    BitVec.getLsbD_setWidth, BitVec.getLsbD_ushiftRight]
  rcases Nat.lt_or_ge k 8 with h | h
  · simp only [h, decide_true, Bool.true_and, Bool.not_true, Bool.false_and, Bool.false_or]
    simp [hk, BitVec.getLsbD_eq_getElem]
  · have : k - 8 < 8 := by omega
    simp [show ¬ k < 8 by omega, this, show 8 + (k - 8) = k by omega, hk, BitVec.getLsbD_eq_getElem]

/-- What `encode_request` answers with Ok is the frame, of a legal command and a payload that fits. -/
theorem encodeRequest_ok (id cmd : Byte) (p f : Bytes) (h : encodeRequest id cmd p = .ok f) :
    f = frameBytes id cmd p ∧ 1 ≤ cmd.toNat ∧ cmd.toNat ≤ 9 ∧ p.length ≤ 248 := by
  unfold encodeRequest at h
  split at h
  · cases h
  · split at h
    · cases h
    · rename_i hc hp
      simp only [Config.cmdMin, Config.cmdMax, Config.maxPayload] at hc hp
      cases h
      have h1 : (0x01 : Byte).toNat = 1 := rfl
      have h9 : (0x09 : Byte).toNat = 9 := rfl
      refine ⟨rfl, ?_, ?_, ?_⟩ <;> omega

end Sys2Proof
end

