-- ==== Sys2Proof/Laws/Decode.lean ====
section
/-! SUPPORT. What the parts of the decoder read back from the parts of the encoder. -/

namespace Sys2Proof

@[simp] theorem toNat_packetSizeOf (p : Bytes) (h : p.length ≤ 248) : (packetSizeOf p).toNat = 7 + p.length := by
  simp only [packetSizeOf, Config.overhead, BitVec.toNat_ofNat]
  omega

/-- The request reader takes a frame apart. -/
theorem requestOf_frameBytes (id cmd : Byte) (p : Bytes) (h : p.length ≤ 248) :
    requestOf (frameBytes id cmd p) = .ok (id, cmd, p) := by
  simp [frameBytes, requestOf, h, Config.overhead]

/-- Motion records are read back. -/
theorem motionRecords_flatMap_record (es : List MotionCommand) :
    motionRecords (es.flatMap MotionCommand.record) = some es := by
  induction es with
  | nil => rfl
  | cons e es ih =>
    simp only [List.flatMap_cons, MotionCommand.record, List.cons_append, List.nil_append, motionRecords,
      wordOf_highByte_lowByte]
    rw [ih]
    rfl

/-- Mode and colour code are read back from a SET byte of valid codes. -/
theorem setByte_fields (mode led : Byte) (hm : (Mode.ofByte? mode).isSome = true) (hl : (Colour.ofByte? led).isSome = true) :
    modeOfSet (setByte mode led) = mode ∧ ledOfSet (setByte mode led) = led := by
  have hm' : mode = 0x00 ∨ mode = 0x01 := by
    unfold Mode.ofByte? at hm
    split at hm
    · exact .inl ‹_›
    · split at hm
      · exact .inr ‹_›
      · cases hm
  have hl' : led = 0x01 ∨ led = 0x02 ∨ led = 0x04 := by
    unfold Colour.ofByte? at hl
    split at hl
    · exact .inl ‹_›
    · split at hl
      · exact .inr (.inl ‹_›)
      · split at hl
        · exact .inr (.inr ‹_›)
        · cases hl
  rcases hm' with rfl | rfl <;> rcases hl' with rfl | rfl | rfl <;> decide

/-- S_JOG entries of valid codes are read back. -/
theorem jogRecords_flatMap_bytes (es : List JogEntry) (h : ∀ e ∈ es, (e.withTime 0).ok = true) :
    jogRecords (es.flatMap JogEntry.bytes) = some es := by
  induction es with
  | nil => rfl
  | cons e es ih =>
    have he := h e (by simp)
    simp only [MotionCommand.ok, JogEntry.withTime, Bool.and_eq_true] at he
    obtain ⟨hm, hl⟩ := setByte_fields e.mode e.led he.2 he.1.2
    simp only [List.flatMap_cons, JogEntry.bytes, List.cons_append, List.nil_append, jogRecords, hm, hl, if_true,
      wordOf_highByte_lowByte]
    rw [ih fun e' he' => h e' (by simp [he'])]
    rfl

/-- A count that fits its field is read back. -/
theorem countOf_countBytes (count : Nat) (h : count < 65536) :
    countOf (highByte (BitVec.ofNat 16 count)) (lowByte (BitVec.ofNat 16 count)) = count := by
  simp only [countOf, wordOf_highByte_lowByte, BitVec.toNat_ofNat]
  omega

/-- The two bytes of a 16-bit value are read back. -/
theorem highByte_wordOf (high low : Byte) : highByte (wordOf high low) = high := by
  ext k hk
  simp [highByte, wordOf, hk, show 8 + k < 16 by omega]

theorem lowByte_wordOf (high low : Byte) : lowByte (wordOf high low) = low := by
  ext k hk
  simp [lowByte, wordOf]

/-- What the request reader accepts is the framer's frame of what it reads. -/
theorem requestOf_ok (b : Bytes) (id cmd : Byte) (p : Bytes) (h : requestOf b = .ok (id, cmd, p)) :
    p.length ≤ 248 ∧ b = frameBytes id cmd p := by
  unfold requestOf at h
  split at h
  · split at h
    · cases h
    · split at h
      · cases h
      · split at h
        · cases h
        · rename_i h0 h1 size id' cmd' c1 c2 p' hh hs hc
          cases h
          rw [not_or, not_not, not_not] at hh
          rw [not_not] at hs hc
          obtain ⟨rfl, rfl⟩ := hh
          simp only [Config.overhead] at hs
          have := size.isLt
          have he : packetSizeOf p = size := by
            apply BitVec.eq_of_toNat_eq
            simp [packetSizeOf, Config.overhead, ← hs]
          refine ⟨by omega, ?_⟩
          simp only [frameBytes, he, ← hc]
          rfl
  · cases h

end Sys2Proof
end

