-- ==== Sys2Proof/Laws/Frames.lean ====
section
/-! SUPPORT. The model's checksum, frame and framing functions against the rules' own formulas (Safety.lean). -/

namespace Sys2Proof

theorem fold_eq_xorAll (p : Bytes) : fold p = xorAll p := by
  induction p with
  | nil => rfl
  | cons x xs ih => rw [fold_cons, ih]; rfl

theorem csum_eq_rule (size id cmd : Byte) (p : Bytes) :
    csum size id cmd p = (ruleChecksum1 size id cmd p, ruleChecksum2 size id cmd p) := by
  simp [csum, checksum1, checksum2, ruleChecksum1, ruleChecksum2, fold_eq_xorAll, Config.csMask]

theorem frameBytes_eq_wireFrame (id cmd : Byte) (p : Bytes) : frameBytes id cmd p = wireFrame id cmd p := by
  simp [frameBytes, wireFrame, csum_eq_rule, packetSizeOf, Config.overhead, Config.headerByte]

/-- `encode_request` builds the frame of R50 for a command of the closed set and a payload that fits. -/
theorem encodeRequest_of_legal (id cmd : Byte) (p : Bytes) (h1 : 1 ≤ cmd.toNat) (h9 : cmd.toNat ≤ 9) (hp : p.length ≤ 248) :
    encodeRequest id cmd p = .ok (wireFrame id cmd p) := by
  unfold encodeRequest
  rw [if_neg, if_neg, frameBytes_eq_wireFrame]
  · simp only [Config.maxPayload]
    omega
  · have a : Config.cmdMin.toNat = 1 := rfl
    have b : Config.cmdMax.toNat = 9 := rfl
    omega

/-- The decoder's framing test is R111's. -/
theorem wellFramed_iff (b : Bytes) : wellFramed b = true ↔ Framed b := by
  unfold wellFramed Framed byteAt
  simp only [Bool.and_eq_true, decide_eq_true_eq, beq_iff_eq, Config.overhead, Config.headerByte]
  match b with
  | [] => simp
  | [_] => simp
  | [_, _] => simp
  | a :: c :: d :: r =>
    have := d.isLt
    simp only [List.length_cons, List.getElem?_cons_zero, List.getElem?_cons_succ, Option.getD_some, Option.some.injEq,
      Option.map_some]
    constructor
    · rintro ⟨⟨⟨h1, h2⟩, h3⟩, h4⟩
      exact ⟨of_decide_eq_true h1, h2, h3, h4, by omega⟩
    · rintro ⟨h1, h2, h3, h4, _⟩
      exact ⟨⟨⟨decide_eq_true h1, h2⟩, h3⟩, h4⟩

theorem wellFramed_eq_false (b : Bytes) (h : ¬ Framed b) : wellFramed b = false := by
  rw [← Bool.not_eq_true, wellFramed_iff]
  exact h

/-- A framed sequence is a prefix and a payload. -/
theorem Framed.form (b : Bytes) (h : Framed b) :
    ∃ size id cmd c1 c2 p, b = [0xFF, 0xFF, size, id, cmd, c1, c2] ++ p ∧ size.toNat = 7 + p.length := by
  match b, h with
  | a0 :: a1 :: a2 :: a3 :: a4 :: a5 :: a6 :: p, h =>
    obtain ⟨_, h2, h3, h4, _⟩ := h
    simp at h2 h3 h4
    subst h2 h3
    exact ⟨a2, a3, a4, a5, a6, p, rfl, by omega⟩
  | [], h => simp [Framed] at h
  | [_], h => simp [Framed] at h
  | [_, _], h => simp [Framed] at h
  | [_, _, _], h => simp [Framed] at h
  | [_, _, _, _], h => simp [Framed] at h
  | [_, _, _, _, _], h => simp [Framed] at h
  | [_, _, _, _, _, _], h => simp [Framed] at h

/-- A prefix whose size byte counts it and its payload is framed. -/
theorem framed_of_size (size id cmd c1 c2 : Byte) (p : Bytes) (h : size.toNat = 7 + p.length) :
    Framed ([0xFF, 0xFF, size, id, cmd, c1, c2] ++ p) := by
  have := size.isLt
  refine ⟨by simp, rfl, rfl, by simp [h]; omega, by simp; omega⟩

/-- On a framed sequence the decoder's checksum test is R113's. -/
theorem checksumsMatch_iff (b : Bytes) (h : Framed b) : checksumsMatch b = true ↔ ChecksumsRight b := by
  obtain ⟨_, _, _, _, _, _, rfl, _⟩ := Framed.form b h
  simp only [checksumsMatch, byteAt, payloadOf, Config.overhead, csum_eq_rule, beq_iff_eq, ChecksumsRight]
  simp

theorem checksumsMatch_eq_false (b : Bytes) (h : Framed b) (hn : ¬ ChecksumsRight b) : checksumsMatch b = false := by
  rw [← Bool.not_eq_true, checksumsMatch_iff b h]
  exact hn

end Sys2Proof
end

