-- ==== Sys2Proof/Laws/State.lean ====
section
/-! SUPPORT. One lemma per field per update of State and Transport, each true by rfl, so that no later proof unfolds a
record update. -/

namespace Sys2Proof.Machine

@[simp] theorem State.finish_busy (s : State) (r : Result Value) : (s.finish r).busy = false := rfl
@[simp] theorem State.finish_th (s : State) (r : Result Value) : (s.finish r).th = s.th := rfl
@[simp] theorem State.finish_params (s : State) (r : Result Value) : (s.finish r).params = s.params := rfl
@[simp] theorem State.finish_script (s : State) (r : Result Value) : (s.finish r).script = s.script := rfl
@[simp] theorem State.finish_opi (s : State) (r : Result Value) : (s.finish r).opi = s.opi := rfl
@[simp] theorem State.finish_ret (s : State) (r : Result Value) : (s.finish r).ret = some r := rfl
@[simp] theorem State.finish_ghostFault (s : State) (r : Result Value) : (s.finish r).ghostFault = (s.ghostFault || isGhostFault r) := rfl

@[simp] theorem State.start_busy (s : State) : (s.start).busy = true := rfl
@[simp] theorem State.start_th (s : State) : (s.start).th = s.th := rfl
@[simp] theorem State.start_params (s : State) : (s.start).params = s.params := rfl
@[simp] theorem State.start_script (s : State) : (s.start).script = s.script := rfl
@[simp] theorem State.start_opi (s : State) : (s.start).opi = s.opi := rfl
@[simp] theorem State.start_ret (s : State) : (s.start).ret = none := rfl
@[simp] theorem State.start_ghostFault (s : State) : (s.start).ghostFault = s.ghostFault := rfl

@[simp] theorem State.withTh_busy (s : State) (th : Transport) : (s.withTh th).busy = s.busy := rfl
@[simp] theorem State.withTh_th (s : State) (th : Transport) : (s.withTh th).th = th := rfl
@[simp] theorem State.withTh_params (s : State) (th : Transport) : (s.withTh th).params = s.params := rfl
@[simp] theorem State.withTh_script (s : State) (th : Transport) : (s.withTh th).script = s.script := rfl
@[simp] theorem State.withTh_opi (s : State) (th : Transport) : (s.withTh th).opi = s.opi := rfl
@[simp] theorem State.withTh_ret (s : State) (th : Transport) : (s.withTh th).ret = s.ret := rfl
@[simp] theorem State.withTh_ghostFault (s : State) (th : Transport) : (s.withTh th).ghostFault = s.ghostFault := rfl

@[simp] theorem State.withFetchWord_busy (s : State) (nbits w : Nat) : (s.withFetchWord nbits w).busy = s.busy := rfl
@[simp] theorem State.withFetchWord_th (s : State) (nbits w : Nat) : (s.withFetchWord nbits w).th = s.th := rfl
@[simp] theorem State.withFetchWord_params (s : State) (nbits w : Nat) : (s.withFetchWord nbits w).params = s.params := rfl
@[simp] theorem State.withFetchWord_script (s : State) (nbits w : Nat) : (s.withFetchWord nbits w).script = placeEntry s.script s.opi (tableEntry s.params nbits w) := rfl
@[simp] theorem State.withFetchWord_opi (s : State) (nbits w : Nat) : (s.withFetchWord nbits w).opi = s.opi := rfl
@[simp] theorem State.withFetchWord_ret (s : State) (nbits w : Nat) : (s.withFetchWord nbits w).ret = s.ret := rfl
@[simp] theorem State.withFetchWord_ghostFault (s : State) (nbits w : Nat) : (s.withFetchWord nbits w).ghostFault = s.ghostFault := rfl

@[simp] theorem State.advance_busy (s : State) : s.advance.busy = s.busy := by
  unfold State.advance
  split <;> rfl

@[simp] theorem State.advance_th (s : State) : s.advance.th = s.th := by
  unfold State.advance
  split <;> rfl

@[simp] theorem State.advance_params (s : State) : s.advance.params = s.params := by
  unfold State.advance
  split <;> rfl

@[simp] theorem State.advance_script (s : State) : s.advance.script = s.script := by
  unfold State.advance
  split <;> rfl

@[simp] theorem State.advance_ret (s : State) : s.advance.ret = s.ret := by
  unfold State.advance
  split <;> rfl

@[simp] theorem State.advance_ghostFault (s : State) : s.advance.ghostFault = s.ghostFault := by
  unfold State.advance
  split <;> rfl

theorem State.advance_of_busy (s : State) (h : s.busy = true) : s.advance = s := by
  simp [State.advance, h]

theorem State.advance_of_idle (s : State) (h : s.busy = false) : s.advance = { s with opi := s.opi + 1 } := by
  simp [State.advance, h]

/-- An idle state is unchanged by writing BUSY 0: the end of a codec operation changes the result and the ghost only. -/
theorem State.finish_of_idle (s : State) (r : Result Value) (h : s.busy = false) :
    s.finish r = { s with ret := some r, ghostFault := s.ghostFault || isGhostFault r } := by
  cases s
  subst h
  rfl

@[simp] theorem isGhostFault_ok (v : Value) : isGhostFault (.ok v) = false := rfl
@[simp] theorem isGhostFault_error (e : Err) : isGhostFault (.error e) = e.isGhostFault := rfl

@[simp] theorem Transport.afterWrite_tx (t : Transport) (f : Bytes) : (t.afterWrite f).tx = t.tx ++ t.bytesSent f := rfl
@[simp] theorem Transport.afterWrite_rx (t : Transport) (f : Bytes) : (t.afterWrite f).rx = t.rx := rfl
@[simp] theorem Transport.afterWrite_writes (t : Transport) (f : Bytes) : (t.afterWrite f).writes = t.writes.tail := rfl
@[simp] theorem Transport.afterWrite_reads (t : Transport) (f : Bytes) : (t.afterWrite f).reads = t.reads := rfl
@[simp] theorem Transport.afterWrite_nWrites (t : Transport) (f : Bytes) : (t.afterWrite f).nWrites = t.nWrites + 1 := rfl
@[simp] theorem Transport.afterWrite_nReads (t : Transport) (f : Bytes) : (t.afterWrite f).nReads = t.nReads := rfl

@[simp] theorem Transport.afterRead_tx (t : Transport) (n : Nat) : (t.afterRead n).tx = t.tx := rfl
@[simp] theorem Transport.afterRead_rx (t : Transport) (n : Nat) : (t.afterRead n).rx = t.rx.drop (t.bytesTaken n) := rfl
@[simp] theorem Transport.afterRead_writes (t : Transport) (n : Nat) : (t.afterRead n).writes = t.writes := rfl
@[simp] theorem Transport.afterRead_reads (t : Transport) (n : Nat) : (t.afterRead n).reads = t.reads.tail := rfl
@[simp] theorem Transport.afterRead_nWrites (t : Transport) (n : Nat) : (t.afterRead n).nWrites = t.nWrites := rfl
@[simp] theorem Transport.afterRead_nReads (t : Transport) (n : Nat) : (t.afterRead n).nReads = t.nReads + 1 := rfl

end Sys2Proof.Machine
end

