-- ==== Sys2Proof/Laws/Transport.lean ====
section
/-! SUPPORT. What one transport call can do (20_memory.md R31, R32). -/

namespace Sys2Proof.Machine

@[simp] theorem Transport.afterWrite_nextRead (t : Transport) (f : Bytes) : (t.afterWrite f).nextRead = t.nextRead := rfl

@[simp] theorem Transport.afterWrite_readEnding (t : Transport) (f : Bytes) (n : Nat) :
    (t.afterWrite f).readEnding n = t.readEnding n := rfl

@[simp] theorem Transport.afterWrite_bytesTaken (t : Transport) (f : Bytes) (n : Nat) :
    (t.afterWrite f).bytesTaken n = t.bytesTaken n := rfl

/-- A write puts a prefix of the frame on TX. -/
theorem Transport.bytesSent_prefix (t : Transport) (f : Bytes) : t.bytesSent f <+: f := by
  unfold Transport.bytesSent
  split
  · exact List.prefix_refl f
  · exact List.take_prefix _ f
  · exact List.take_prefix _ f

/-- A write that succeeds puts the whole frame on TX. -/
theorem Transport.bytesSent_of_returns (t : Transport) (f : Bytes) (h : t.writeEnding = .returns) : t.bytesSent f = f := by
  unfold Transport.writeEnding at h
  unfold Transport.bytesSent
  split at h <;> simp_all

/-- A write only appends. -/
theorem Transport.afterWrite_tx_prefix (t : Transport) (f : Bytes) : t.tx <+: (t.afterWrite f).tx :=
  List.prefix_append _ _

/-- A read only removes from the front. -/
theorem Transport.afterRead_rx_suffix (t : Transport) (n : Nat) : (t.afterRead n).rx <:+ t.rx :=
  List.drop_suffix _ _

/-- A read that returns has its bytes in RX. -/
theorem Transport.length_of_returns (t : Transport) (n : Nat) (h : t.readEnding n = .returns) : n ≤ t.rx.length := by
  unfold Transport.readEnding at h
  split at h <;> try contradiction
  split at h
  · assumption
  · contradiction

/-- A read that returns takes exactly n bytes. -/
theorem Transport.bytesTaken_of_returns (t : Transport) (n : Nat) (h : t.readEnding n = .returns) : t.bytesTaken n = n := by
  simp [Transport.bytesTaken, h]

/-- A read that fails takes at most n bytes. -/
theorem Transport.bytesTaken_of_fails (t : Transport) (n : Nat) (h : t.readEnding n = .fails) : t.bytesTaken n ≤ n := by
  simp [Transport.bytesTaken, h]

theorem Transport.writeEnding_of_success (t : Transport) (h : t.nextWrite = .success) : t.writeEnding = .returns := by
  simp [Transport.writeEnding, h]

theorem Transport.writeEnding_of_failure (t : Transport) (k : Nat) (h : t.nextWrite = .failure k) :
    t.writeEnding = .fails := by
  simp [Transport.writeEnding, h]

theorem Transport.writeEnding_of_never (t : Transport) (k : Nat) (h : t.nextWrite = .never k) : t.writeEnding = .never := by
  simp [Transport.writeEnding, h]

end Sys2Proof.Machine
end

