-- ==== Sys2Proof/Laws/Ops.lean ====
section
/-! SUPPORT. What each shared operation of the machine can do, said once: an issued operation is refused or answers; a codec
operation ends; a send, a read, an emission and an exchange end in one of the ways 43_session.md R130 lists. -/

namespace Sys2Proof.Machine

theorem issue_of_busy (s : State) (body : State → State) (h : s.busy = true) : issue s body = .refused .busy := by
  simp [issue, h]

theorem issue_of_idle (s : State) (body : State → State) (h : s.busy = false) : issue s body = .next (body s) := by
  simp [issue, h]

/-- The only next state of an issued operation is its body's, and BUSY was 0. -/
theorem issue_next (s t : State) (body : State → State) (h : issue s body = .next t) : s.busy = false ∧ t = body s := by
  unfold issue at h
  split at h
  · cases h
  · cases h
    exact ⟨by simpa using ‹¬s.busy = true›, rfl⟩

/-- An issued operation never faults. -/
theorem issue_ne_fault (s : State) (body : State → State) (f : Fault) : issue s body ≠ .fault f := by
  unfold issue
  split <;> simp

theorem answer_of_idle (s : State) (r : Result Value) (h : s.busy = false) :
    answer s r = .next { s with ret := some r, ghostFault := s.ghostFault || isGhostFault r } := by
  rw [answer, issue_of_idle _ _ h, State.finish_of_idle s r h]

/-- A codec operation's next state. -/
theorem answer_next (s t : State) (r : Result Value) (h : answer s r = .next t) : s.busy = false ∧ t = s.finish r :=
  issue_next s t _ h

@[simp] theorem State.require_ok {α : Type} (s : State) (a : α) (k : α → State) : s.require (.ok a) k = k a := rfl

@[simp] theorem State.require_error {α : Type} (s : State) (e : Err) (k : α → State) :
    s.require (.error e) k = s.finish (.error e) := rfl

theorem State.send_of_returns (s : State) (f : Bytes) (k : State → State) (h : s.th.writeEnding = .returns) :
    s.send f k = k (s.withTh (s.th.afterWrite f)) := by
  simp [State.send, h]

theorem State.send_of_fails (s : State) (f : Bytes) (k : State → State) (h : s.th.writeEnding = .fails) :
    s.send f k = (s.withTh (s.th.afterWrite f)).finish (.error .transportError) := by
  simp [State.send, h]

theorem State.send_of_never (s : State) (f : Bytes) (k : State → State) (h : s.th.writeEnding = .never) :
    s.send f k = s.withTh (s.th.afterWrite f) := by
  simp [State.send, h]

theorem State.receive_of_returns (s : State) (n : Nat) (k : Bytes → State → State) (h : s.th.readEnding n = .returns) :
    s.receive n k = k (s.th.rx.take n) (s.withTh (s.th.afterRead n)) := by
  simp [State.receive, h]

theorem State.receive_of_fails (s : State) (n : Nat) (k : Bytes → State → State) (h : s.th.readEnding n = .fails) :
    s.receive n k = (s.withTh (s.th.afterRead n)).finish (.error .transportError) := by
  simp [State.receive, h]

theorem State.receive_of_never (s : State) (n : Nat) (k : Bytes → State → State) (h : s.th.readEnding n = .never) :
    s.receive n k = (s.withTh (s.th.afterRead n)) := by
  simp [State.receive, h]

/-- Every way phases 4 to 6 can end: with a decoded result, with `TransportError`, or not at all. -/
theorem State.awaitReply_cases (s : State) (n : Nat) (fields : Bytes → Result Value) :
    (s.th.readEnding n = .returns ∧ s.awaitReply n fields =
      (s.withTh (s.th.afterRead n)).finish (decodeReply n s.params.verifyDefault fields (s.th.rx.take n))) ∨
    (s.th.readEnding n = .fails ∧ s.awaitReply n fields =
      (s.withTh (s.th.afterRead n)).finish (.error .transportError)) ∨
    (s.th.readEnding n = .never ∧ s.awaitReply n fields = (s.withTh (s.th.afterRead n))) := by
  cases h : s.th.readEnding n
  · exact .inl ⟨rfl, State.receive_of_returns _ _ _ h⟩
  · exact .inr (.inl ⟨rfl, State.receive_of_fails _ _ _ h⟩)
  · exact .inr (.inr ⟨rfl, State.receive_of_never _ _ _ h⟩)

/-- Every way a write that does not succeed can leave an operation: ended with `TransportError`, or not ended. -/
def SendStops (s t : State) (f : Bytes) : Prop :=
  (s.th.writeEnding = .fails ∧ t = (s.withTh (s.th.afterWrite f)).finish (.error .transportError)) ∨
  (s.th.writeEnding = .never ∧ t = s.withTh (s.th.afterWrite f))

/-- Every way phase 3 can go. -/
theorem State.send_cases (s : State) (f : Bytes) (k : State → State) :
    SendStops s (s.send f k) f ∨ (s.th.writeEnding = .returns ∧ s.send f k = k (s.withTh (s.th.afterWrite f))) := by
  cases h : s.th.writeEnding
  · exact .inr ⟨rfl, State.send_of_returns _ _ _ h⟩
  · exact .inl (.inl ⟨h, State.send_of_fails _ _ _ h⟩)
  · exact .inl (.inr ⟨h, State.send_of_never _ _ _ h⟩)

/-- Every way a write-only operation can end: its operands are refused, the write does not succeed, or the frame is on
TX. -/
theorem emit_next (s t : State) (request : Result Bytes) (h : emit s request = .next t) :
    s.busy = false ∧
    ((∃ e, request = .error e ∧ t = s.start.finish (.error e)) ∨
     (∃ f, request = .ok f ∧ SendStops s.start t f) ∨
     (∃ f, request = .ok f ∧ s.th.writeEnding = .returns ∧
        t = (s.start.withTh (s.th.afterWrite f)).finish (.ok .unit))) := by
  obtain ⟨hb, rfl⟩ := issue_next _ _ _ h
  refine ⟨hb, ?_⟩
  cases request with
  | error e => exact .inl ⟨e, rfl, rfl⟩
  | ok f =>
    rcases State.send_cases s.start f (fun s => s.finish (.ok .unit)) with hs | ⟨hw, hs⟩
    · exact .inr (.inl ⟨f, rfl, hs⟩)
    · exact .inr (.inr ⟨f, rfl, hw, hs⟩)

/-- Every way an operation with one exchange can end. -/
theorem exchange_next (s t : State) (request : Result Bytes) (n : Nat) (fields : Bytes → Result Value)
    (h : exchange s request n fields = .next t) :
    s.busy = false ∧
    ((∃ e, request = .error e ∧ t = s.start.finish (.error e)) ∨
     (∃ f, request = .ok f ∧ SendStops s.start t f) ∨
     (∃ f, request = .ok f ∧ s.th.writeEnding = .returns ∧
        t = (s.start.withTh (s.th.afterWrite f)).awaitReply n fields)) := by
  obtain ⟨hb, rfl⟩ := issue_next _ _ _ h
  refine ⟨hb, ?_⟩
  cases request with
  | error e => exact .inl ⟨e, rfl, rfl⟩
  | ok f =>
    rcases State.send_cases s.start f (fun s => s.awaitReply n fields) with hs | ⟨hw, hs⟩
    · exact .inr (.inl ⟨f, rfl, hs⟩)
    · exact .inr (.inr ⟨f, rfl, hw, hs⟩)

/-- Every way an operation with two writes and one read can end. -/
theorem exchangeTwo_next (s t : State) (request second : Result Bytes) (n : Nat) (fields : Bytes → Result Value)
    (h : exchangeTwo s request second n fields = .next t) :
    s.busy = false ∧
    ((∃ e, request = .error e ∧ t = s.start.finish (.error e)) ∨
     (∃ f, request = .ok f ∧ SendStops s.start t f) ∨
     (∃ f e, request = .ok f ∧ s.th.writeEnding = .returns ∧ second = .error e ∧
        t = (s.start.withTh (s.th.afterWrite f)).finish (.error e)) ∨
     (∃ f g, request = .ok f ∧ s.th.writeEnding = .returns ∧ second = .ok g ∧
        SendStops (s.start.withTh (s.th.afterWrite f)) t g) ∨
     (∃ f g, request = .ok f ∧ s.th.writeEnding = .returns ∧ second = .ok g ∧ (s.th.afterWrite f).writeEnding = .returns ∧
        t = (s.start.withTh ((s.th.afterWrite f).afterWrite g)).awaitReply n fields)) := by
  obtain ⟨hb, rfl⟩ := issue_next _ _ _ h
  refine ⟨hb, ?_⟩
  cases request with
  | error e => exact .inl ⟨e, rfl, rfl⟩
  | ok f =>
    rcases State.send_cases s.start f
        (fun s => s.require second fun g => s.send g fun s => s.awaitReply n fields) with hs | ⟨hw, hs⟩
    · exact .inr (.inl ⟨f, rfl, hs⟩)
    · cases second with
      | error e => exact .inr (.inr (.inl ⟨f, e, rfl, hw, rfl, hs⟩))
      | ok g =>
        rcases State.send_cases (s.start.withTh (s.th.afterWrite f)) g (fun s => s.awaitReply n fields) with hs' | ⟨hw', hs'⟩
        · exact .inr (.inr (.inr (.inl ⟨f, g, rfl, hw, rfl, by rw [State.require_ok, hs]; exact hs'⟩)))
        · exact .inr (.inr (.inr (.inr ⟨f, g, rfl, hw, rfl, hw', hs.trans hs'⟩)))

end Sys2Proof.Machine
end

