-- ==== Sys2Proof/Laws/PerInstr.lean ====
section
/-! SUPPORT. Statements made per instruction. Family TableBits: the encoding of a well-formed instruction carries the bits
that its row of spec/opcode_table.json fixes (its match under its mask). -/

namespace Sys2Proof.Laws

/-- The bytes of an entry. -/
def entryBytes : Entry → Bytes
  | .op b => b
  | .frame b => b
  | .emit _ b => b
  | .resp b => b

/-- The leading bytes of `b` under `mask` are `pattern`. -/
def Matches (pattern mask b : Bytes) : Prop := List.zipWith (· &&& ·) b mask = pattern

/-- Match and mask of a FRAME row. -/
def frameMatch (code : Byte) : Bytes × Bytes :=
  ([0xFF, 0xFF, 0x00, 0x00, code, 0x00, 0x00], [0xFF, 0xFF, 0x00, 0x00, 0xFF, 0x01, 0x01])

/-- Match and mask of a FRAME_FIXED row with a fixed size. -/
def fixedMatch (size code : Byte) : Bytes × Bytes :=
  ([0xFF, 0xFF, size, 0x00, code, 0x00, 0x00], [0xFF, 0xFF, 0xFF, 0x00, 0xFF, 0x01, 0x01])

/-- Match and mask of a RESP row. -/
def respMatch (size : Byte) : Bytes × Bytes :=
  ([0xFF, 0xFF, size, 0x00, 0x00, 0x00, 0x00], [0xFF, 0xFF, 0xFF, 0x00, 0x00, 0x00, 0x00])

/-- Match and mask of a HOSTOP row. -/
def opMatch (opsel : Byte) : Bytes × Bytes := ([opsel], [0xFF])

/-- Match and mask of each row of spec/opcode_table.json. -/
def tableRow : Instr → Bytes × Bytes
  | .eepWrite _ _ => frameMatch 0x01
  | .eepRead _ _ => frameMatch 0x02
  | .ramWrite _ _ => frameMatch 0x03
  | .ramRead _ _ => frameMatch 0x04
  | .iJog _ _ => frameMatch 0x05
  | .sJog _ _ => frameMatch 0x06
  | .stat _ _ => frameMatch 0x07
  | .rollback _ _ => frameMatch 0x08
  | .reboot _ _ => frameMatch 0x09
  | .ramWriteSetLed _ _ => fixedMatch 0x0A 0x03
  | .ramWriteSetAcknowledgePolicy _ _ => fixedMatch 0x0A 0x03
  | .ramWriteSetControlMode _ _ => fixedMatch 0x0A 0x03
  | .ramWriteSetTorque _ _ => fixedMatch 0x0A 0x03
  | .ramReadGetAbsoluteAngle _ => fixedMatch 0x09 0x04
  | .ramReadGetCalibratedAngle _ => fixedMatch 0x09 0x04
  | .statGetStatus _ => fixedMatch 0x07 0x07
  | .ramWriteClearStatus _ => fixedMatch 0x0B 0x03
  | .sJogRunMotion _ _ => frameMatch 0x06
  | .statResponse _ _ _ _ _ _ => respMatch 0x09
  | .ramReadResponse2 _ _ _ _ _ _ _ _ _ _ => respMatch 0x0D
  | .csum _ _ _ _ => opMatch 0x00
  | .encodeRequest _ _ _ => opMatch 0x01
  | .marshalRamWrite _ _ => opMatch 0x02
  | .marshalRamRead _ _ => opMatch 0x03
  | .marshalSjog _ _ => opMatch 0x04
  | .decodeHeader _ => opMatch 0x08
  | .decodeResponse _ _ _ => opMatch 0x09
  | .verifyChecksum _ => opMatch 0x0A
  | .decodeAbsAngle _ => opMatch 0x0B
  | .decodeCalAngle _ => opMatch 0x0C
  | .decodeStatus _ => opMatch 0x0D
  | .statusFlags _ _ => opMatch 0x0E
  | .setLed _ _ => opMatch 0x10
  | .setAcknowledgePolicy _ _ => opMatch 0x11
  | .setControlMode _ _ => opMatch 0x12
  | .setTorque _ _ => opMatch 0x13
  | .getAbsoluteAngle _ => opMatch 0x14
  | .getCalibratedAngle _ => opMatch 0x15
  | .getStatus _ => opMatch 0x16
  | .clearStatus _ => opMatch 0x17
  | .runMotion _ _ => opMatch 0x18

/-- The encoding carries its row's fixed bits. -/
def TableBits.Statement (i : Instr) : Prop :=
  ∀ p, WellFormed i = true → Matches (tableRow i).1 (tableRow i).2 (entryBytes (encode p i))

theorem and_csMask_and_one (x : Byte) : x &&& Config.csMask &&& 0x01 = 0x00 := by
  rw [BitVec.and_assoc, show Config.csMask &&& 0x01 = (0 : Byte) from rfl]
  exact BitVec.and_zero

/-- A frame carries the bits that a FRAME row fixes. -/
theorem frameBytes_matches (id cmd : Byte) (p : Bytes) (h : cmd &&& 0xFF = cmd) :
    Matches (frameMatch cmd).1 (frameMatch cmd).2 (frameBytes id cmd p) := by
  have hz : ∀ x : Byte, x &&& 0x00 = 0x00 := fun x => BitVec.and_zero
  simp only [Matches, frameMatch, frameBytes, csum, checksum1, checksum2, List.cons_append, List.nil_append,
    List.zipWith_cons_cons, List.zipWith_nil_right, and_csMask_and_one, h, hz]
  rfl

/-- A frame of a payload of known length carries the bits that a FRAME_FIXED row fixes. -/
theorem frameBytes_matches_fixed (id cmd size : Byte) (p : Bytes) (n : Nat) (hn : p.length = n) (h : cmd &&& 0xFF = cmd)
    (hsize : BitVec.ofNat 8 (Config.overhead + n) &&& 0xFF = size) :
    Matches (fixedMatch size cmd).1 (fixedMatch size cmd).2 (frameBytes id cmd p) := by
  have hs : packetSizeOf p &&& 0xFF = size := by rw [packetSizeOf, hn, hsize]
  have hz : ∀ x : Byte, x &&& 0x00 = 0x00 := fun x => BitVec.and_zero
  simp only [Matches, fixedMatch, frameBytes, csum, checksum1, checksum2, List.cons_append, List.nil_append,
    List.zipWith_cons_cons, List.zipWith_nil_right, and_csMask_and_one, h, hs, hz]
  rfl

/-- A response carries the bits that a RESP row fixes. -/
theorem response_matches (size id cmd c1 c2 : Byte) (rest : Bytes) (hs : size &&& 0xFF = size) :
    Matches (respMatch size).1 (respMatch size).2 (0xFF :: 0xFF :: size :: id :: cmd :: c1 :: c2 :: rest) := by
  have hz : ∀ x : Byte, x &&& 0x00 = 0x00 := fun x => BitVec.and_zero
  simp only [Matches, respMatch, List.zipWith_cons_cons, List.zipWith_nil_right, hs, hz]
  rfl

/-- An operation record carries its OPSEL. -/
theorem record_matches (opsel : Byte) (b : Bytes) (h : opsel &&& 0xFF = opsel) :
    Matches (opMatch opsel).1 (opMatch opsel).2 (opsel :: b) := by
  simp only [Matches, opMatch, List.zipWith_cons_cons, List.zipWith_nil_right, h]

theorem TableBits.eepWrite (motorId : Byte) (payload : Bytes) : TableBits.Statement (.eepWrite motorId payload) :=
  fun _ _ => frameBytes_matches _ _ _ (by decide)

theorem TableBits.eepRead (motorId : Byte) (payload : Bytes) : TableBits.Statement (.eepRead motorId payload) :=
  fun _ _ => frameBytes_matches _ _ _ (by decide)

theorem TableBits.ramWrite (motorId : Byte) (payload : Bytes) : TableBits.Statement (.ramWrite motorId payload) :=
  fun _ _ => frameBytes_matches _ _ _ (by decide)

theorem TableBits.ramRead (motorId : Byte) (payload : Bytes) : TableBits.Statement (.ramRead motorId payload) :=
  fun _ _ => frameBytes_matches _ _ _ (by decide)

theorem TableBits.iJog (motorId : Byte) (payload : Bytes) : TableBits.Statement (.iJog motorId payload) :=
  fun _ _ => frameBytes_matches _ _ _ (by decide)

theorem TableBits.sJog (motorId : Byte) (payload : Bytes) : TableBits.Statement (.sJog motorId payload) :=
  fun _ _ => frameBytes_matches _ _ _ (by decide)

theorem TableBits.stat (motorId : Byte) (payload : Bytes) : TableBits.Statement (.stat motorId payload) :=
  fun _ _ => frameBytes_matches _ _ _ (by decide)

theorem TableBits.rollback (motorId : Byte) (payload : Bytes) : TableBits.Statement (.rollback motorId payload) :=
  fun _ _ => frameBytes_matches _ _ _ (by decide)

theorem TableBits.reboot (motorId : Byte) (payload : Bytes) : TableBits.Statement (.reboot motorId payload) :=
  fun _ _ => frameBytes_matches _ _ _ (by decide)

theorem TableBits.ramWriteSetLed (motorId colour : Byte) : TableBits.Statement (.ramWriteSetLed motorId colour) :=
  fun _ _ => frameBytes_matches_fixed _ _ _ _ 3 rfl (by decide) (by decide)

theorem TableBits.ramWriteSetAcknowledgePolicy (motorId policy : Byte) : TableBits.Statement (.ramWriteSetAcknowledgePolicy motorId policy) :=
  fun _ _ => frameBytes_matches_fixed _ _ _ _ 3 rfl (by decide) (by decide)

theorem TableBits.ramWriteSetControlMode (motorId mode : Byte) : TableBits.Statement (.ramWriteSetControlMode motorId mode) :=
  fun _ _ => frameBytes_matches_fixed _ _ _ _ 3 rfl (by decide) (by decide)

theorem TableBits.ramWriteSetTorque (motorId mode : Byte) : TableBits.Statement (.ramWriteSetTorque motorId mode) :=
  fun _ _ => frameBytes_matches_fixed _ _ _ _ 3 rfl (by decide) (by decide)

theorem TableBits.ramReadGetAbsoluteAngle (motorId : Byte) : TableBits.Statement (.ramReadGetAbsoluteAngle motorId) :=
  fun _ _ => frameBytes_matches_fixed _ _ _ _ 2 rfl (by decide) (by decide)

theorem TableBits.ramReadGetCalibratedAngle (motorId : Byte) : TableBits.Statement (.ramReadGetCalibratedAngle motorId) :=
  fun _ _ => frameBytes_matches_fixed _ _ _ _ 2 rfl (by decide) (by decide)

theorem TableBits.statGetStatus (motorId : Byte) : TableBits.Statement (.statGetStatus motorId) :=
  fun _ _ => frameBytes_matches_fixed _ _ _ _ 0 rfl (by decide) (by decide)

theorem TableBits.ramWriteClearStatus (motorId : Byte) : TableBits.Statement (.ramWriteClearStatus motorId) :=
  fun _ _ => frameBytes_matches_fixed _ _ _ _ 4 rfl (by decide) (by decide)

theorem TableBits.sJogRunMotion (timeTicks : Byte) (entries : List JogEntry) : TableBits.Statement (.sJogRunMotion timeTicks entries) :=
  fun _ _ => frameBytes_matches _ _ _ (by decide)

theorem TableBits.statResponse (motorId command checksum1 checksum2 statusError statusDetail : Byte) : TableBits.Statement (.statResponse motorId command checksum1 checksum2 statusError statusDetail) :=
  fun _ _ => response_matches _ _ _ _ _ _ (by decide)

theorem TableBits.ramReadResponse2 (motorId command checksum1 checksum2 byte7 byte8 dataLow dataHigh statusError statusDetail : Byte) : TableBits.Statement (.ramReadResponse2 motorId command checksum1 checksum2 byte7 byte8 dataLow dataHigh statusError statusDetail) :=
  fun _ _ => response_matches _ _ _ _ _ _ (by decide)

theorem TableBits.csum (packetSize motorId command : Byte) (payload : Bytes) : TableBits.Statement (.csum packetSize motorId command payload) :=
  fun _ _ => record_matches _ _ (by decide)

theorem TableBits.encodeRequest (motorId command : Byte) (payload : Bytes) : TableBits.Statement (.encodeRequest motorId command payload) :=
  fun _ _ => record_matches _ _ (by decide)

theorem TableBits.marshalRamWrite (register : Byte) (data : Bytes) : TableBits.Statement (.marshalRamWrite register data) :=
  fun _ _ => record_matches _ _ (by decide)

theorem TableBits.marshalRamRead (register length : Byte) : TableBits.Statement (.marshalRamRead register length) :=
  fun _ _ => record_matches _ _ (by decide)

theorem TableBits.marshalSjog (entries : List MotionCommand) (count : Nat) : TableBits.Statement (.marshalSjog entries count) :=
  fun _ _ => record_matches _ _ (by decide)

theorem TableBits.decodeHeader (bytes : Bytes) : TableBits.Statement (.decodeHeader bytes) :=
  fun _ _ => record_matches _ _ (by decide)

theorem TableBits.decodeResponse (bytes : Bytes) (expectedPayloadLen : Byte) (verify : Bool) : TableBits.Statement (.decodeResponse bytes expectedPayloadLen verify) :=
  fun _ _ => record_matches _ _ (by decide)

theorem TableBits.verifyChecksum (bytes : Bytes) : TableBits.Statement (.verifyChecksum bytes) :=
  fun _ _ => record_matches _ _ (by decide)

theorem TableBits.decodeAbsAngle (bytes : Bytes) : TableBits.Statement (.decodeAbsAngle bytes) :=
  fun _ _ => record_matches _ _ (by decide)

theorem TableBits.decodeCalAngle (bytes : Bytes) : TableBits.Statement (.decodeCalAngle bytes) :=
  fun _ _ => record_matches _ _ (by decide)

theorem TableBits.decodeStatus (bytes : Bytes) : TableBits.Statement (.decodeStatus bytes) :=
  fun _ _ => record_matches _ _ (by decide)

theorem TableBits.statusFlags (statusError statusDetail : Byte) : TableBits.Statement (.statusFlags statusError statusDetail) :=
  fun _ _ => record_matches _ _ (by decide)

theorem TableBits.setLed (motorId colour : Byte) : TableBits.Statement (.setLed motorId colour) :=
  fun _ _ => record_matches _ _ (by decide)

theorem TableBits.setAcknowledgePolicy (motorId policy : Byte) : TableBits.Statement (.setAcknowledgePolicy motorId policy) :=
  fun _ _ => record_matches _ _ (by decide)

theorem TableBits.setControlMode (motorId mode : Byte) : TableBits.Statement (.setControlMode motorId mode) :=
  fun _ _ => record_matches _ _ (by decide)

theorem TableBits.setTorque (motorId mode : Byte) : TableBits.Statement (.setTorque motorId mode) :=
  fun _ _ => record_matches _ _ (by decide)

theorem TableBits.getAbsoluteAngle (motorId : Byte) : TableBits.Statement (.getAbsoluteAngle motorId) :=
  fun _ _ => record_matches _ _ (by decide)

theorem TableBits.getCalibratedAngle (motorId : Byte) : TableBits.Statement (.getCalibratedAngle motorId) :=
  fun _ _ => record_matches _ _ (by decide)

theorem TableBits.getStatus (motorId : Byte) : TableBits.Statement (.getStatus motorId) :=
  fun _ _ => record_matches _ _ (by decide)

theorem TableBits.clearStatus (motorId : Byte) : TableBits.Statement (.clearStatus motorId) :=
  fun _ _ => record_matches _ _ (by decide)

theorem TableBits.runMotion (entries : List MotionCommand) (count : Nat) : TableBits.Statement (.runMotion entries count) :=
  fun _ _ => record_matches _ _ (by decide)

end Sys2Proof.Laws
end

