-- ==== Sys2Proof/Laws/Requests.lean ====
section
/-! SUPPORT. The request of each session operation, said once: the frame of 43_session.md's rule where the operands are
accepted, else `InvalidArgument`. -/

namespace Sys2Proof

/-- A frame, or the refusal of the operands. -/
def acceptedOr (o : Option Bytes) : Result Bytes :=
  match o with
  | some f => .ok f
  | none => .error .invalidArgument

theorem motorIdOk_iff (id : Byte) : motorIdOk id = true ↔ id ≠ 255 := by
  revert id
  decide

theorem registerWrite_eq (id register value : Byte) :
    registerWrite id register value = .ok (wireFrame id 0x03 [register, 1, value]) :=
  encodeRequest_of_legal _ _ [register, 1, value] (by decide) (by decide) (by simp)

theorem positionRead_eq (id register : Byte) : positionRead id register = .ok (wireFrame id 0x04 [register, 2]) :=
  encodeRequest_of_legal _ _ [register, 2] (by decide) (by decide) (by simp)

/-- A byte is one of the three colour codes, or no colour. -/
theorem colour_cases (c : Byte) :
    ((c = 1 ∨ c = 2 ∨ c = 4) ∧ (Colour.ofByte? c).map Colour.code = some c) ∨
    (¬(c = 1 ∨ c = 2 ∨ c = 4) ∧ Colour.ofByte? c = none) := by
  revert c
  decide

/-- A byte is one of the two mode codes, or no mode. -/
theorem mode_cases (m : Byte) :
    (m.toNat ≤ 1 ∧ (Mode.ofByte? m).map Mode.code = some m) ∨ (¬m.toNat ≤ 1 ∧ Mode.ofByte? m = none) := by
  revert m
  decide

/-- A byte is one of the three torque indices, or no torque mode. -/
theorem torque_cases (m : Byte) :
    (m.toNat ≤ 2 ∧ (torqueWire m).isSome = true ∧ (TorqueMode.ofIndex? m).map TorqueMode.code = torqueWire m) ∨
    (¬m.toNat ≤ 2 ∧ torqueWire m = none ∧ TorqueMode.ofIndex? m = none) := by
  revert m
  decide

theorem ledRequest_eq (id c : Byte) :
    ledRequest id c = acceptedOr (if id ≠ 255 ∧ (c = 1 ∨ c = 2 ∨ c = 4) then some (wireFrame id 0x03 [53, 1, c]) else none) := by
  unfold ledRequest
  by_cases hid : id = 255
  · subst hid
    rw [show motorIdOk 255 = false by decide, if_neg (by tauto)]
    rfl
  · rw [(motorIdOk_iff id).2 hid]
    rcases colour_cases c with ⟨hc, h⟩ | ⟨hc, h⟩
    · obtain ⟨k, hk, rfl⟩ := Option.map_eq_some_iff.1 h
      rw [if_pos ⟨hid, hc⟩, hk]
      exact registerWrite_eq _ _ _
    · rw [if_neg (by tauto), h]
      rfl

theorem policyRequest_eq (p : Config.Params) (id v : Byte) :
    policyRequest p id v = acceptedOr (if id ≠ 255 ∧ v.toNat ≤ 2 then some (wireFrame id 0x03 [p.regAckPolicy, 1, v]) else none) := by
  unfold policyRequest
  have hiff : (motorIdOk id && policyOk v) = true ↔ id ≠ 255 ∧ v.toNat ≤ 2 := by
    simp only [Bool.and_eq_true, motorIdOk_iff, policyOk, decide_eq_true_eq]
  by_cases h : id ≠ 255 ∧ v.toNat ≤ 2
  · rw [if_pos h, if_pos (hiff.2 h)]
    exact registerWrite_eq _ _ _
  · rw [if_neg h, if_neg fun hh => h (hiff.1 hh)]
    rfl

theorem controlModeRequest_eq (p : Config.Params) (id m : Byte) :
    controlModeRequest p id m =
      acceptedOr (if id ≠ 255 ∧ m.toNat ≤ 1 then some (wireFrame id 0x03 [p.regControlMode, 1, m]) else none) := by
  unfold controlModeRequest
  by_cases hid : id = 255
  · subst hid
    rw [show motorIdOk 255 = false by decide, if_neg (by tauto)]
    rfl
  · rw [(motorIdOk_iff id).2 hid]
    rcases mode_cases m with ⟨hm, h⟩ | ⟨hm, h⟩
    · obtain ⟨k, hk, rfl⟩ := Option.map_eq_some_iff.1 h
      rw [if_pos ⟨hid, hm⟩, hk]
      exact registerWrite_eq _ _ _
    · rw [if_neg (by tauto), h]
      rfl

theorem torqueRequest_eq (p : Config.Params) (id m : Byte) :
    torqueRequest p id m =
      acceptedOr (if id ≠ 255 then (torqueWire m).map fun t => wireFrame id 0x03 [p.regTorque, 1, t] else none) := by
  unfold torqueRequest
  by_cases hid : id = 255
  · subst hid
    rw [show motorIdOk 255 = false by decide, if_neg (by tauto)]
    rfl
  · rw [(motorIdOk_iff id).2 hid, if_pos hid]
    rcases torque_cases m with ⟨_, h1, h2⟩ | ⟨_, h1, h2⟩
    · obtain ⟨t, ht⟩ := Option.isSome_iff_exists.1 h1
      rw [ht] at h2 ⊢
      obtain ⟨k, hk, rfl⟩ := Option.map_eq_some_iff.1 h2
      rw [hk]
      exact registerWrite_eq _ _ _
    · rw [h1, h2]
      rfl

theorem absoluteAngleRequest_eq (id : Byte) :
    absoluteAngleRequest id = acceptedOr (if id ≠ 255 then some (wireFrame id 0x04 [60, 2]) else none) := by
  unfold absoluteAngleRequest
  by_cases hid : id = 255
  · subst hid
    rfl
  · rw [if_pos ((motorIdOk_iff id).2 hid), if_pos hid]
    exact positionRead_eq _ _

theorem calibratedAngleRequest_eq (id : Byte) :
    calibratedAngleRequest id = acceptedOr (if id ≠ 255 then some (wireFrame id 0x04 [58, 2]) else none) := by
  unfold calibratedAngleRequest
  by_cases hid : id = 255
  · subst hid
    rfl
  · rw [if_pos ((motorIdOk_iff id).2 hid), if_pos hid]
    exact positionRead_eq _ _

theorem statusRequest_eq (id : Byte) :
    statusRequest id = acceptedOr (if id ≠ 255 then some (wireFrame id 0x07 []) else none) := by
  unfold statusRequest
  by_cases hid : id = 255
  · subst hid
    rfl
  · rw [if_pos ((motorIdOk_iff id).2 hid), if_pos hid]
    exact encodeRequest_of_legal _ _ [] (by decide) (by decide) (by simp)

theorem clearRequest_eq (p : Config.Params) (id : Byte) :
    clearRequest p id = acceptedOr (if id ≠ 255 then some (wireFrame id 0x03 [p.regStatusError, 2, 0, 0]) else none) := by
  unfold clearRequest
  by_cases hid : id = 255
  · subst hid
    rfl
  · rw [if_pos ((motorIdOk_iff id).2 hid), if_pos hid]
    exact encodeRequest_of_legal _ _ [p.regStatusError, 2, 0, 0] (by decide) (by decide) (by simp)

end Sys2Proof
end

