-- ==== Sys2Proof/Tests/Slice0.lean ====
section
/-! SUPPORT. The model's own tests. Expected results are from 95_test_vectors.md (named V-..) or from the tables of the rules
named; the last part shows, for every statement with hypotheses, operands and a state that meet them. -/

namespace Sys2Proof.Tests

open Sys2Proof.Machine

/-! ## Helpers -/

/-- A session on a bench: RX as given, every transport call succeeds, the defaults of 00_scope.md R5, and 28 for the
register that has none. -/
def bench (rx : Bytes) : State :=
  State.create ⟨[], rx, [.success, .success], [⟨.returns, 0⟩], 0, 0⟩ ⟨1, 28, 52, 48, false⟩ []

/-- The bench with other choices of the environment. -/
def rigged (rx : Bytes) (writes : List Config.TxChoice) (reads : List Config.RxChoice) : State :=
  { bench rx with th := ⟨[], rx, writes, reads, 0, 0⟩ }

/-- The bench with verification on. -/
def strict (rx : Bytes) : State := { bench rx with params := ⟨1, 28, 52, 48, true⟩ }

def after (o : StepOutcome) : Option State :=
  match o with
  | .next t => some t
  | .fault _ => none
  | .refused _ => none

/-- Result, TX and RX after an instruction. -/
def shows (i : Instr) (s : State) : Option (Option (Result Value) × Bytes × Bytes) :=
  (after (exec i s)).map fun t => (t.ret, t.th.tx, t.th.rx)

/-- The result of a codec instruction. -/
def gives (i : Instr) : Option (Option (Result Value)) := (after (exec i (bench []))).map State.ret

def reads (p : Config.Params) (e : Entry) : Option Instr :=
  match decode p e with
  | .ok i => some i
  | .error _ => none

def refusedAs (p : Config.Params) (e : Entry) : Option DecodeError :=
  match decode p e with
  | .ok _ => none
  | .error why => some why

def params0 : Config.Params := ⟨1, 28, 52, 48, false⟩

/-! ## Decoding: a word of each row, written from the spec's encoding of it -/

-- FRAME rows: V-F1 to V-F4f
theorem test_decode_eepWrite : reads params0 (.frame [0xFF, 0xFF, 0x07, 0x01, 0x01, 0x06, 0xF8]) = some (.eepWrite 1 []) := by
  decide
theorem test_decode_eepRead : reads params0 (.frame [0xFF, 0xFF, 0x0C, 0x07, 0x02, 0x08, 0xF6, 1, 2, 3, 4, 5]) =
    some (.eepRead 7 [1, 2, 3, 4, 5]) := by decide
theorem test_decode_ramWrite : reads params0 (.frame [0xFF, 0xFF, 0x09, 0x01, 0x03, 0x0A, 0xF4, 0xFF, 0xFF]) =
    some (.ramWrite 1 [0xFF, 0xFF]) := by decide
theorem test_decode_ramRead : reads params0 (.frame [0xFF, 0xFF, 0x09, 0x01, 0x04, 0x32, 0xCC, 0x3C, 0x02]) =
    some (.ramRead 1 [60, 2]) := by decide
theorem test_decode_iJog : reads params0 (.frame [0xFF, 0xFF, 0x0C, 0x0A, 0x05, 0x32, 0xCC, 0x00, 0x02, 0x04, 0x0A, 0x3C]) =
    some (.iJog 10 [0, 2, 4, 10, 60]) := by decide
theorem test_decode_sJog : reads params0 (.frame [0xFF, 0xFF, 0x0C, 0x01, 0x06, 0xC6, 0x38, 0x3C, 0x01, 0xF4, 0x04, 0x01]) =
    some (.sJog 1 [60, 1, 0xF4, 4, 1]) := by decide
theorem test_decode_stat : reads params0 (.frame [0xFF, 0xFF, 0x07, 0xFD, 0x07, 0xFC, 0x02]) = some (.stat 253 []) := by
  decide
theorem test_decode_rollback : reads params0 (.frame [0xFF, 0xFF, 0x07, 0x01, 0x08, 0x0E, 0xF0]) = some (.rollback 1 []) := by
  decide
theorem test_decode_reboot : reads params0 (.frame [0xFF, 0xFF, 0x07, 0x01, 0x09, 0x0E, 0xF0]) = some (.reboot 1 []) := by
  decide

-- FRAME_FIXED rows: V-Q1, V-Q8, V-Q10, V-Q14, V-Q16, V-Q19, V-Q20, V-Q28, V-J7
theorem test_decode_ramWriteSetLed :
    reads params0 (.emit 0x10 [0xFF, 0xFF, 0x0A, 0x01, 0x03, 0x38, 0xC6, 0x35, 0x01, 0x04]) = some (.ramWriteSetLed 1 4) := by
  decide
theorem test_decode_ramWriteSetAcknowledgePolicy :
    reads params0 (.emit 0x11 [0xFF, 0xFF, 0x0A, 0x01, 0x03, 0x08, 0xF6, 0x01, 0x01, 0x01]) =
      some (.ramWriteSetAcknowledgePolicy 1 1) := by decide
theorem test_decode_ramWriteSetControlMode :
    reads params0 (.emit 0x12 [0xFF, 0xFF, 0x0A, 0x01, 0x03, 0x14, 0xEA, 0x1C, 0x01, 0x01]) =
      some (.ramWriteSetControlMode 1 1) := by decide
theorem test_decode_ramWriteSetTorque :
    reads params0 (.emit 0x13 [0xFF, 0xFF, 0x0A, 0x01, 0x03, 0x5C, 0xA2, 0x34, 0x01, 0x60]) =
      some (.ramWriteSetTorque 1 2) := by decide
theorem test_decode_ramReadGetAbsoluteAngle :
    reads params0 (.emit 0x14 [0xFF, 0xFF, 0x09, 0x01, 0x04, 0x32, 0xCC, 0x3C, 0x02]) =
      some (.ramReadGetAbsoluteAngle 1) := by decide
theorem test_decode_ramReadGetCalibratedAngle :
    reads params0 (.emit 0x15 [0xFF, 0xFF, 0x09, 0x01, 0x04, 0x34, 0xCA, 0x3A, 0x02]) =
      some (.ramReadGetCalibratedAngle 1) := by decide
theorem test_decode_statGetStatus :
    reads params0 (.emit 0x16 [0xFF, 0xFF, 0x07, 0x01, 0x07, 0x00, 0xFE]) = some (.statGetStatus 1) := by decide
theorem test_decode_ramWriteClearStatus :
    reads params0 (.emit 0x17 [0xFF, 0xFF, 0x0B, 0x01, 0x03, 0x3A, 0xC4, 0x30, 0x02, 0x00, 0x00]) =
      some (.ramWriteClearStatus 1) := by decide
theorem test_decode_sJogRunMotion :
    reads params0 (.emit 0x18 [0xFF, 0xFF, 0x10, 0x02, 0x06, 0x00, 0xFE, 0xFF, 0x03, 0xFF, 0x06, 0x02, 0x00, 0x00, 0x10, 0x03]) =
      some (.sJogRunMotion 255 [⟨1023, 1, 1, 2⟩, ⟨0, 4, 0, 3⟩]) := by decide

-- RESP rows: V-S6, V-A5
theorem test_decode_statResponse :
    reads params0 (.resp [0xFF, 0xFF, 0x09, 0x01, 0x47, 0x18, 0xE6, 0x12, 0x44]) =
      some (.statResponse 1 0x47 0x18 0xE6 0x12 0x44) := by decide
theorem test_decode_ramReadResponse2 :
    reads params0 (.resp [0xFF, 0xFF, 0x0D, 0x01, 0x44, 0x50, 0xAE, 0x3C, 0x02, 0x34, 0x12, 0x00, 0x00]) =
      some (.ramReadResponse2 1 0x44 0x50 0xAE 0x3C 0x02 0x34 0x12 0 0) := by decide

-- HOSTOP rows: the OPSEL codes of R70, operands in the model's record (log 5)
theorem test_decode_csum : reads params0 (.op [0x00, 9, 1, 4, 60, 2]) = some (.csum 9 1 4 [60, 2]) := by decide
theorem test_decode_encodeRequest : reads params0 (.op [0x01, 1, 4, 60, 2]) = some (.encodeRequest 1 4 [60, 2]) := by decide
theorem test_decode_marshalRamWrite : reads params0 (.op [0x02, 53, 4]) = some (.marshalRamWrite 53 [4]) := by decide
theorem test_decode_marshalRamRead : reads params0 (.op [0x03, 60, 2]) = some (.marshalRamRead 60 2) := by decide
theorem test_decode_marshalSjog :
    reads params0 (.op [0x04, 0x00, 0x01, 1, 0x01, 0xF4, 60, 4, 0]) = some (.marshalSjog [⟨1, 500, 60, 4, 0⟩] 1) := by decide
theorem test_decode_decodeHeader : reads params0 (.op [0x08, 0xFF]) = some (.decodeHeader [0xFF]) := by decide
theorem test_decode_decodeResponse : reads params0 (.op [0x09, 2, 1, 0xFF]) = some (.decodeResponse [0xFF] 2 true) := by decide
theorem test_decode_verifyChecksum : reads params0 (.op [0x0A, 0xFF]) = some (.verifyChecksum [0xFF]) := by decide
theorem test_decode_decodeAbsAngle : reads params0 (.op [0x0B, 0xFF]) = some (.decodeAbsAngle [0xFF]) := by decide
theorem test_decode_decodeCalAngle : reads params0 (.op [0x0C, 0xFF]) = some (.decodeCalAngle [0xFF]) := by decide
theorem test_decode_decodeStatus : reads params0 (.op [0x0D, 0xFF]) = some (.decodeStatus [0xFF]) := by decide
theorem test_decode_statusFlags : reads params0 (.op [0x0E, 0x12, 0x44]) = some (.statusFlags 0x12 0x44) := by decide
theorem test_decode_setLed : reads params0 (.op [0x10, 1, 4]) = some (.setLed 1 4) := by decide
theorem test_decode_setAcknowledgePolicy : reads params0 (.op [0x11, 1, 2]) = some (.setAcknowledgePolicy 1 2) := by decide
theorem test_decode_setControlMode : reads params0 (.op [0x12, 1, 0]) = some (.setControlMode 1 0) := by decide
theorem test_decode_setTorque : reads params0 (.op [0x13, 1, 2]) = some (.setTorque 1 2) := by decide
theorem test_decode_getAbsoluteAngle : reads params0 (.op [0x14, 1]) = some (.getAbsoluteAngle 1) := by decide
theorem test_decode_getCalibratedAngle : reads params0 (.op [0x15, 1]) = some (.getCalibratedAngle 1) := by decide
theorem test_decode_getStatus : reads params0 (.op [0x16, 1]) = some (.getStatus 1) := by decide
theorem test_decode_clearStatus : reads params0 (.op [0x17, 1]) = some (.clearStatus 1) := by decide
theorem test_decode_runMotion :
    reads params0 (.op [0x18, 0x00, 0x02, 1, 0x03, 0xFF, 60, 4, 1]) = some (.runMotion [⟨1, 1023, 60, 4, 1⟩] 2) := by decide

-- Rejections by name
theorem test_decode_refusals :
    refusedAs params0 (.op []) = some .empty ∧ refusedAs params0 (.op [0x05, 0]) = some .unknownOpsel ∧
    refusedAs params0 (.op [0x19]) = some .unknownOpsel ∧ refusedAs params0 (.op [0x10, 1]) = some .truncatedOperands ∧
    refusedAs params0 (.op [0x14, 1, 2]) = some .trailingBytes ∧ refusedAs params0 (.op [0x09, 2, 2]) = some .badVerifyBit ∧
    refusedAs params0 (.op [0x18, 0, 1, 7]) = some .badMotionRecord ∧
    refusedAs params0 (.frame [0xFE, 0xFF, 0x07, 0x01, 0x07, 0x00, 0xFE]) = some .noHeader ∧
    refusedAs params0 (.frame [0xFF, 0xFF, 0x08, 0x01, 0x07, 0x00, 0xFE]) = some .badSize ∧
    refusedAs params0 (.frame [0xFF, 0xFF, 0x07, 0x01, 0x07, 0x00, 0xFF]) = some .badChecksum ∧
    refusedAs params0 (.frame [0xFF, 0xFF, 0x07, 0x01, 0x0A, 0x0C, 0xF2]) = some .unknownCommand ∧
    refusedAs params0 (.emit 0x16 [0xFF, 0xFF, 0x07, 0xFF, 0x07, 0xFE, 0x00]) = some .notThatRow := by decide

-- Words of the opcode table: OPSEL alone, and a 56-bit prefix
theorem test_tableWord : decodeTableWord 8 0x13 = some (.setTorque 0 0) ∧ decodeTableWord 8 0x0F = none ∧
    decodeTableWord 56 0xFFFF07FD07FC02 = some (.stat 253 []) ∧ decodeTableWord 56 0xFFFF0000080000 = some (.rollback 0 []) ∧
    decodeTableWord 56 0xFFFF0D00000000 = some (.ramReadResponse2 0 0 0 0 0 0 0 0 0 0) ∧
    decodeTableWord 56 0xFFFF0A00030000 = some (.ramWriteSetLed 0 1) ∧
    decodeTableWord 56 0xFFFF0900040000 = some (.ramReadGetAbsoluteAngle 0) ∧
    decodeTableWord 56 0xFFFF0700070000 = some (.statGetStatus 0) := by decide
-- R73: a word without the header, or with checksum bytes that are not its frame's, is in no row
theorem test_tableWord_refused : ∀ w ∈ [0x00000000010000, 0xFFFF0000010204, 0x00000A00030000, 0xFFFE0A00030000, 0xFFFF00000A0000],
    decodeTableWord 56 w = none := by decide

/-! ## WellFormed: an ill-formed term for each check -/

theorem test_illFormed_payload : WellFormed (.stat 1 (List.replicate 249 0)) = false := by decide +kernel
theorem test_illFormed_led : WellFormed (.ramWriteSetLed 1 3) = false ∧ WellFormed (.ramWriteSetLed 255 1) = false := by decide
theorem test_illFormed_policy : WellFormed (.ramWriteSetAcknowledgePolicy 1 3) = false := by decide
theorem test_illFormed_mode : WellFormed (.ramWriteSetControlMode 1 2) = false := by decide
theorem test_illFormed_torque : WellFormed (.ramWriteSetTorque 1 0x40) = false := by decide
theorem test_illFormed_motorId : WellFormed (.statGetStatus 255) = false ∧ WellFormed (.ramWriteClearStatus 255) = false ∧
    WellFormed (.ramReadGetAbsoluteAngle 255) = false ∧ WellFormed (.ramReadGetCalibratedAngle 255) = false := by decide
theorem test_illFormed_entries : WellFormed (.sJogRunMotion 0 []) = false ∧
    WellFormed (.sJogRunMotion 0 [⟨1024, 1, 0, 1⟩]) = false ∧
    WellFormed (.sJogRunMotion 0 (List.replicate 62 ⟨0, 1, 0, 1⟩)) = false := by decide
theorem test_illFormed_count : WellFormed (.marshalSjog [] 65536) = false ∧ WellFormed (.runMotion [] 65536) = false := by decide

/-! ## Meanings -/

-- V-C1, V-C6
theorem test_csum : gives (.csum 9 1 4 [60, 2]) = some (some (.ok (.checksums 0x32 0xCC))) ∧
    gives (.csum 7 0xFF 7 []) = some (some (.ok (.checksums 0xFE 0x00))) := by decide
-- V-F8, V-F20
theorem test_encodeRequest : gives (.encodeRequest 255 7 []) = some (some (.ok (.packet [0xFF, 0xFF, 7, 255, 7, 0xFE, 0x00]))) ∧
    gives (.encodeRequest 1 0 (List.replicate 249 0)) = some (some (.error .invalidArgument)) := by decide +kernel
-- V-F9, S7
theorem test_ramWrite_longest :
    gives (.ramWrite 1 (List.replicate 248 0)) =
      some (some (.ok (.packet ([0xFF, 0xFF, 0xFF, 0x01, 0x03, 0xFC, 0x02] ++ List.replicate 248 0)))) ∧
    gives (.ramWrite 1 (List.replicate 249 0)) = some (some (.error .payloadTooLarge)) := by decide +kernel
-- V-F1, V-F2, V-F4, V-F4b, V-F4c, V-F4d, V-F4e, V-F4f
theorem test_wireCommands :
    gives (.eepWrite 1 []) = some (some (.ok (.packet [0xFF, 0xFF, 7, 1, 1, 0x06, 0xF8]))) ∧
    gives (.eepRead 1 []) = some (some (.ok (.packet [0xFF, 0xFF, 7, 1, 2, 0x04, 0xFA]))) ∧
    gives (.ramRead 1 []) = some (some (.ok (.packet [0xFF, 0xFF, 7, 1, 4, 0x02, 0xFC]))) ∧
    gives (.iJog 1 []) = some (some (.ok (.packet [0xFF, 0xFF, 7, 1, 5, 0x02, 0xFC]))) ∧
    gives (.sJog 1 []) = some (some (.ok (.packet [0xFF, 0xFF, 7, 1, 6, 0x00, 0xFE]))) ∧
    gives (.stat 1 []) = some (some (.ok (.packet [0xFF, 0xFF, 7, 1, 7, 0x00, 0xFE]))) ∧
    gives (.rollback 1 []) = some (some (.ok (.packet [0xFF, 0xFF, 7, 1, 8, 0x0E, 0xF0]))) ∧
    gives (.reboot 1 []) = some (some (.ok (.packet [0xFF, 0xFF, 7, 1, 9, 0x0E, 0xF0]))) := by decide
-- V-M2, V-M5, V-M6
theorem test_marshalRam : gives (.marshalRamWrite 48 [0, 0]) = some (some (.ok (.payload [0x30, 2, 0, 0]))) ∧
    gives (.marshalRamWrite 0 (List.replicate 247 0)) = some (some (.error .payloadTooLarge)) ∧
    gives (.marshalRamRead 60 2) = some (some (.ok (.payload [0x3C, 2]))) := by decide +kernel
-- V-J7
theorem test_marshalSjog : gives (.marshalSjog [⟨2, 1023, 255, 1, 1⟩, ⟨3, 0, 7, 4, 0⟩] 2) =
    some (some (.ok (.sjog 2 [0xFF, 0x03, 0xFF, 0x06, 0x02, 0x00, 0x00, 0x10, 0x03]))) := by decide
-- V-J16, V-J17
theorem test_marshalSjog_checks :
    gives (.marshalSjog [⟨1, 500, 60, 4, 0⟩, ⟨255, 0, 0, 4, 0⟩] 1) =
      some (some (.ok (.sjog 1 [0x3C, 0x01, 0xF4, 0x10, 0x01]))) ∧
    gives (.marshalSjog (⟨1, 2000, 0, 1, 0⟩ :: List.replicate 61 ⟨1, 0, 0, 1, 0⟩) 62) =
      some (some (.error .invalidArgument)) := by decide
-- V-D20, V-D21
theorem test_decodeHeader : gives (.decodeHeader [0xFF, 0xFF, 7, 1, 0x0A, 0, 0]) = some (some (.ok (.header 1 0x0A 7))) ∧
    gives (.decodeHeader [0xFF, 0xFF, 9, 1, 4, 0x32, 0xCC, 0x3C]) = some (some (.error .malformed)) := by decide
-- V-D5, V-D6
theorem test_decodeResponse :
    gives (.decodeResponse [0xFF, 0xFF, 9, 1, 0x47, 0x0E, 0xF0, 0x00, 0x41] 2 true) =
      some (some (.ok (.response ⟨9, 1, 0x47, 0x0E, 0xF0, [0x00, 0x41]⟩))) ∧
    gives (.decodeResponse [0xFF, 0xFF, 9, 1, 0x47, 0x0F, 0xF0, 0x00, 0x40] 2 true) = some (some (.error .corrupt)) := by decide
-- V-D18, V-D13
theorem test_decodeResponse_malformed :
    gives (.decodeResponse [0xFE, 0xFF, 9, 1, 0x47, 0, 0, 0, 0x40] 2 true) = some (some (.error .malformed)) ∧
    gives (.decodeResponse [0xFF, 0xFF, 13, 1, 0x44, 0xDC, 0x22, 0x3C, 2, 0xE8, 3, 0, 0x40] 2 false) =
      some (some (.error .malformed)) := by decide
-- V-D22, V-D23
theorem test_verifyChecksum :
    gives (.verifyChecksum [0xFF, 0xFF, 9, 1, 0x47, 0x0E, 0xF0, 0x00, 0x40]) = some (some (.ok (.verified true))) ∧
    gives (.verifyChecksum [0xFF, 0xFF, 9, 1, 0x47, 0x0E, 0xF0, 0x00, 0x42]) = some (some (.ok (.verified false))) := by decide
-- V-A4, V-A5
theorem test_decodeAbsAngle :
    gives (.decodeAbsAngle [0xFF, 0xFF, 13, 1, 0x44, 0x76, 0x88, 0x3C, 2, 0xFF, 0xFF, 0, 0]) =
      some (some (.ok (.absAngle 65535 21298875))) ∧
    gives (.decodeAbsAngle [0xFF, 0xFF, 13, 1, 0x44, 0x50, 0xAE, 0x3C, 2, 0x34, 0x12, 0, 0]) =
      some (some (.ok (.absAngle 0x1234 1514500))) := by decide
-- V-A10, V-A12
theorem test_decodeCalAngle :
    gives (.decodeCalAngle [0xFF, 0xFF, 13, 1, 0x44, 0x88, 0x76, 0x3A, 2, 0xFF, 0x07, 0, 0]) =
      some (some (.ok (.calAngle 2047 1023))) ∧
    gives (.decodeCalAngle [0xFF, 0xFF, 11, 1, 0x44, 0x9A, 0x64, 0x3C, 2, 0xE8, 0x03]) =
      some (some (.ok (.calAngle 1000 1000))) := by decide
-- V-S10, V-S11
theorem test_decodeStatus :
    gives (.decodeStatus [0xFF, 0xFF, 13, 1, 0x44, 0xDC, 0x22, 0x3C, 2, 0xE8, 3, 0x00, 0x40]) =
      some (some (.ok (.status ⟨0x00, 0x40⟩))) ∧
    gives (.decodeStatus [0xFF, 0xFF, 8, 1, 0x47, 0x4E, 0xB0, 0]) = some (some (.error .malformed)) := by decide
-- V-S6, V-S9
theorem test_statusFlags : gives (.statusFlags 0x12 0x44) = some (some (.ok (.flags 0x4412 true))) ∧
    gives (.statusFlags 0x80 0x00) = some (some (.ok (.flags 0x0080 true))) ∧
    gives (.statusFlags 0x00 0x00) = some (some (.ok (.flags 0x0000 false))) := by decide
-- R119's worked example
theorem test_namedFlags : Status.hasError ⟨0x12, 0x44⟩ .potLimit = true ∧ Status.hasError ⟨0x12, 0x44⟩ .overload = true ∧
    Status.hasError ⟨0x12, 0x44⟩ .voltage = false ∧ Status.hasDetail ⟨0x12, 0x44⟩ .checksumError = true ∧
    Status.hasDetail ⟨0x12, 0x44⟩ .motorOn = true ∧ Status.hasDetail ⟨0x12, 0x44⟩ .moving = false := by decide
-- V-Q3, V-Q6
theorem test_setLed : shows (.setLed 254 2) (bench [7]) =
      some (some (.ok .unit), [0xFF, 0xFF, 0x0A, 0xFE, 0x03, 0xC0, 0x3E, 0x35, 0x01, 0x02], [7]) ∧
    shows (.setLed 1 3) (bench [7]) = some (some (.error .invalidArgument), [], [7]) := by decide
-- V-Q8, V-Q9
theorem test_setAcknowledgePolicy : shows (.setAcknowledgePolicy 1 1) (bench []) =
      some (some (.ok .unit), [0xFF, 0xFF, 0x0A, 0x01, 0x03, 0x08, 0xF6, 0x01, 0x01, 0x01], []) ∧
    shows (.setAcknowledgePolicy 1 3) (bench []) = some (some (.error .invalidArgument), [], []) := by decide
-- V-Q10 with r = 28, V-Q11
theorem test_setControlMode : shows (.setControlMode 1 1) (bench []) =
      some (some (.ok .unit), [0xFF, 0xFF, 0x0A, 0x01, 0x03, 0x14, 0xEA, 0x1C, 0x01, 0x01], []) ∧
    shows (.setControlMode 1 2) (bench []) = some (some (.error .invalidArgument), [], []) := by decide
-- V-Q13, V-Q15
theorem test_setTorque : shows (.setTorque 1 1) (bench []) =
      some (some (.ok .unit), [0xFF, 0xFF, 0x0A, 0x01, 0x03, 0x7C, 0x82, 0x34, 0x01, 0x40], []) ∧
    shows (.setTorque 1 0x40) (bench []) = some (some (.error .invalidArgument), [], []) := by decide
-- V-Q17
theorem test_getAbsoluteAngle : shows (.getAbsoluteAngle 2) (bench [0xFF, 0xFF, 13, 1, 0x44, 0xDC, 0x22, 0x3C, 2, 0xE8, 3, 0, 0x40]) =
    some (some (.ok (.millidegrees 325000)), [0xFF, 0xFF, 9, 2, 4, 0x30, 0xCE, 0x3C, 2], []) := by decide
-- V-Q19
theorem test_getCalibratedAngle :
    shows (.getCalibratedAngle 1) (bench [0xFF, 0xFF, 13, 1, 0x44, 0x30, 0xCE, 0x3A, 2, 0xFF, 0xFF, 0, 0x40]) =
      some (some (.ok (.calibrated 1023)), [0xFF, 0xFF, 9, 1, 4, 0x34, 0xCA, 0x3A, 2], []) := by decide
-- V-Q22, V-Q23
theorem test_getStatus :
    shows (.getStatus 1) (bench [0x00, 0xFF, 0xFF, 9, 1, 0x47, 0x0E, 0xF0, 0x00, 0x40]) =
      some (some (.error .malformed), [0xFF, 0xFF, 7, 1, 7, 0x00, 0xFE], [0x40]) ∧
    shows (.getStatus 1) (bench [0xFF, 0xFF, 9, 1, 0x47, 0x0E, 0xF0, 0x00, 0x42]) =
      some (some (.ok (.status ⟨0x00, 0x42⟩)), [0xFF, 0xFF, 7, 1, 7, 0x00, 0xFE], []) ∧
    shows (.getStatus 1) (strict [0xFF, 0xFF, 9, 1, 0x47, 0x0E, 0xF0, 0x00, 0x42]) =
      some (some (.error .corrupt), [0xFF, 0xFF, 7, 1, 7, 0x00, 0xFE], []) := ⟨by decide, by decide, by decide⟩
-- V-Q24, V-Q25, V-Q26
theorem test_getStatus_environment :
    shows (.getStatus 1) (rigged [1] [.failure 3] []) = some (some (.error .transportError), [0xFF, 0xFF, 7], [1]) ∧
    shows (.getStatus 1) (rigged (List.replicate 12 0) [.success] [⟨.fails, 4⟩]) =
      some (some (.error .transportError), [0xFF, 0xFF, 7, 1, 7, 0x00, 0xFE], List.replicate 8 0) ∧
    (after (exec (.getStatus 1) (rigged [1, 2, 3, 4, 5] [.success] [⟨.returns, 0⟩]))).map (fun t => (t.busy, t.ret, t.th.tx)) =
      some (true, none, [0xFF, 0xFF, 7, 1, 7, 0x00, 0xFE]) := by decide
-- V-Q29, V-Q31
theorem test_clearStatus :
    shows (.clearStatus 1) (bench [0xFF, 0xFF, 9, 1, 0x47, 0x4E, 0xB0, 0x01, 0x00]) =
      some (some (.ok (.status ⟨0x01, 0x00⟩)),
        [0xFF, 0xFF, 0x0B, 1, 3, 0x3A, 0xC4, 0x30, 2, 0, 0, 0xFF, 0xFF, 7, 1, 7, 0x00, 0xFE], []) ∧
    shows (.clearStatus 1) (rigged [] [.success, .failure 2] []) =
      some (some (.error .transportError), [0xFF, 0xFF, 0x0B, 1, 3, 0x3A, 0xC4, 0x30, 2, 0, 0, 0xFF, 0xFF], []) := by decide
-- V-Q32, V-Q34
theorem test_runMotion :
    shows (.runMotion [⟨1, 500, 60, 4, 0⟩] 1) (bench []) =
      some (some (.ok .unit), [0xFF, 0xFF, 0x0C, 1, 6, 0xD2, 0x2C, 0x3C, 0x01, 0xF4, 0x10, 0x01], []) ∧
    shows (.runMotion [⟨1, 1024, 60, 4, 0⟩] 1) (bench []) = some (some (.error .invalidArgument), [], []) := by decide
-- the frames of V-Q2, V-Q12, V-Q16, V-Q28 and V-J7 as rows
theorem test_fixedRows :
    shows (.ramWriteSetLed 1 1) (bench []) =
      some (some (.ok .unit), [0xFF, 0xFF, 0x0A, 1, 3, 0x3C, 0xC2, 0x35, 1, 1], []) ∧
    shows (.ramWriteSetTorque 1 0) (bench []) =
      some (some (.ok .unit), [0xFF, 0xFF, 0x0A, 1, 3, 0x3C, 0xC2, 0x34, 1, 0], []) ∧
    shows (.ramReadGetAbsoluteAngle 1) (bench []) = some (some (.ok .unit), [0xFF, 0xFF, 9, 1, 4, 0x32, 0xCC, 0x3C, 2], []) ∧
    shows (.ramWriteClearStatus 1) (bench []) =
      some (some (.ok .unit), [0xFF, 0xFF, 0x0B, 1, 3, 0x3A, 0xC4, 0x30, 2, 0, 0], []) ∧
    shows (.sJogRunMotion 255 [⟨1023, 1, 1, 2⟩, ⟨0, 4, 0, 3⟩]) (bench []) =
      some (some (.ok .unit), [0xFF, 0xFF, 0x10, 2, 6, 0x00, 0xFE, 0xFF, 3, 0xFF, 6, 2, 0, 0, 0x10, 3], []) := ⟨by decide, by decide, by decide, by decide, by decide⟩
-- V-S6, V-A7 as rows
theorem test_respRows :
    gives (.statResponse 1 0x47 0x18 0xE6 0x12 0x44) =
      some (some (.ok (.statResponse ⟨9, 1, 0x47, 0x18, 0xE6, [0x12, 0x44]⟩ ⟨0x12, 0x44⟩))) ∧
    gives (.ramReadResponse2 1 0x44 0x30 0xCE 0x3A 2 0x00 0x02 0x00 0x42) =
      some (some (.ok (.ramReadResponse ⟨13, 1, 0x44, 0x30, 0xCE, [0x3A, 2, 0, 2, 0, 0x42]⟩ 512 166400 512
        ⟨0x00, 0x42⟩))) := by decide
-- ports: R11, R150
theorem test_ports : (portsOf (.ok (.absAngle 1000 325000))).angMdeg = some 325000 ∧
    (portsOf (.ok (.calAngle 2047 1023))).raw = some 2047 ∧ (portsOf (.ok (.status ⟨0x12, 0x44⟩))).sdet = some 0x44 ∧
    (portsOf (.error .corrupt)).err = 5 ∧ (portsOf (.ok (.packet [1, 2, 3]))).pktLen = some 3 := by decide
-- one step of a script, and its end (R12)
theorem test_step : (after (step { bench [] with script := [.op [0x10, 255, 4]] })).map (fun t => (t.opi, t.ret, t.busy)) =
      some (1, some (.error .invalidArgument), false) ∧
    after (step { bench [] with script := [.op [0x10, 255, 4]], opi := 1 }) = none := by decide

/-! ## Witnesses: operands and states that meet the hypotheses of each statement that has some, clause by clause -/

theorem right_of_match (b : Bytes) (h : Framed b) (hm : checksumsMatch b = true) : ChecksumsRight b :=
  (checksumsMatch_iff b h).1 hm

theorem wrong_of_mismatch (b : Bytes) (h : Framed b) (hm : checksumsMatch b = false) : ¬ChecksumsRight b := by
  rw [← checksumsMatch_iff b h, hm]
  decide

/-- A whole STAT answer with right checksums, one with wrong ones, and bytes that are no frame (V-D5, V-D6, V-D18). -/
def goodStat : Bytes := [0xFF, 0xFF, 9, 1, 0x47, 0x0E, 0xF0, 0x00, 0x41]
def badStat : Bytes := [0xFF, 0xFF, 9, 1, 0x47, 0x0F, 0xF0, 0x00, 0x40]
def noFrame : Bytes := [0xFE, 0xFF, 9, 1, 0x47, 0x0E, 0xF0, 0x00, 0x40]
def goodPosition : Bytes := [0xFF, 0xFF, 13, 1, 0x44, 0xDC, 0x22, 0x3C, 2, 0xE8, 3, 0, 0x40]
def badPosition : Bytes := [0xFF, 0xFF, 13, 1, 0x44, 0xDC, 0x20, 0x3C, 2, 0xE8, 3, 0, 0x40]

/-- Entries at both ends of R97's ranges. -/
def lowEntry : MotionCommand := ⟨0, 0, 0, 1, 0⟩
def highEntry : MotionCommand := ⟨254, 1023, 255, 4, 1⟩

theorem goodStat_right : ChecksumsRight goodStat := right_of_match _ (by decide) (by decide)
theorem badStat_wrong : ¬ChecksumsRight badStat := wrong_of_mismatch _ (by decide) (by decide)
theorem goodPosition_right : ChecksumsRight goodPosition := right_of_match _ (by decide) (by decide)
theorem badPosition_wrong : ¬ChecksumsRight badPosition := wrong_of_mismatch _ (by decide) (by decide)

theorem bench_accepts (rx b : Bytes) : (bench rx).Accepts b := fun h => by cases h
theorem strict_accepts (rx b : Bytes) (h : ChecksumsRight b) : (strict rx).Accepts b := fun _ => h
theorem strict_rejects (rx b : Bytes) (h : ¬ChecksumsRight b) : ¬(strict rx).Accepts b := fun ha => h (ha rfl)

-- CsumReturnsBothChecksums, NineWireCommands, MarshalRamWrite, MarshalRamRead, StatusFlags, EveryOperationRunsWhenIdle
theorem witness_idle : (bench []).busy = false := rfl
theorem witness_ChecksumLawsHoldForEveryOutput :
    ∃ t, exec (.csum 0xFF 0xFF 0xFF [0xFF]) (bench []) = .next t ∧ t.ret = some (.ok (.checksums 0x00 0xFE)) :=
  ⟨_, rfl, by decide⟩
theorem witness_FoldIsIndependentOfOrderAndGrouping : ([1, 2, 3] : Bytes).Perm [3, 1, 2] := by decide
theorem witness_ChecksumsCoverAllButBitZero :
    ([60, 2] : Bytes).map (· &&& 0xFE) = ([61, 2] : Bytes).map (· &&& 0xFE) ∧ (9 : Byte) &&& 0xFE = 8 &&& 0xFE ∧
    (0x02 : Byte) &&& 0xFE ≠ 0x00 &&& 0xFE ∧ (0x80 : Byte) &&& 0xFE ≠ 0x01 &&& 0xFE := by decide
theorem witness_EncodeRequestFramesOrRefuses :
    (0x01 ≤ (0x01 : Byte).toNat ∧ (0x09 : Byte).toNat ≤ 0x09 ∧ (List.replicate 248 (0 : Byte)).length ≤ 248) ∧
    ((0x00 : Byte).toNat < 0x01 ∧ 0x09 < (0x0A : Byte).toNat) ∧ 248 < (List.replicate 249 (0 : Byte)).length := by
  decide +kernel
theorem witness_DecoderInvertsFramer :
    encodeRequest 255 9 [0xFF, 0xFF] = .ok [0xFF, 0xFF, 0x09, 0xFF, 0x09, 0xFE, 0x00, 0xFF, 0xFF] := rfl
/-- Operands that `marshal_sjog` and `run_motion` lay out, refuse as arguments, and refuse as too large. -/
abbrev motionWitness : Prop :=
  ((∃ rest, [lowEntry, highEntry] = lowEntry :: [] ++ rest) ∧ 1 = 1 + ([] : List MotionCommand).length ∧
    ∀ e ∈ lowEntry :: [], e.InRange) ∧
  ((61 = 1 + (List.replicate 60 lowEntry).length ∧ 61 ≤ 61) ∧
    ∀ e ∈ highEntry :: List.replicate 60 lowEntry, e.InRange) ∧
  ([highEntry].length < 2 ∧ (∃ e ∈ [(⟨1, 1024, 0, 1, 0⟩ : MotionCommand)].take 1, ¬e.InRange) ∧
    ∃ e ∈ [(⟨255, 0, 0, 1, 0⟩ : MotionCommand)].take 1, ¬e.InRange) ∧
  (62 ≤ 62 ∧ 62 ≤ (List.replicate 62 lowEntry).length ∧ ∀ e ∈ (List.replicate 62 lowEntry).take 62, e.InRange)

theorem witness_MarshalSjogLaysOutOrRefuses : motionWitness :=
  ⟨⟨⟨[highEntry], rfl⟩, by decide, by decide⟩, by decide, by decide, by decide⟩
theorem witness_SetByteCarriesModeAndColour : lowEntry.InRange ∧ highEntry.InRange := by decide
theorem witness_DecodeHeaderReadsThreeFields :
    ¬Framed (List.replicate 6 0xFF) ∧ (7 : Byte).toNat = 7 + ([] : Bytes).length ∧
    (255 : Byte).toNat = 7 + (List.replicate 248 (0 : Byte)).length := by decide +kernel
theorem witness_DecodeResponseChecksFramingThenLengthThenChecksums :
    ¬Framed noFrame ∧ goodStat.length ≠ 7 + (6 : Byte).toNat ∧
    (Framed badStat ∧ badStat.length = 7 + (2 : Byte).toNat ∧ ¬ChecksumsRight badStat) ∧
    (goodStat = [0xFF, 0xFF, 9, 1, 0x47, 0x0E, 0xF0] ++ [0x00, 0x41] ∧ ChecksumsRight goodStat) :=
  ⟨by decide, by decide, ⟨by decide, by decide, badStat_wrong⟩, by decide, goodStat_right⟩
theorem witness_VerifyChecksumComparesBothBytes :
    ¬Framed noFrame ∧ (Framed goodStat ∧ ChecksumsRight goodStat) ∧ (Framed badStat ∧ ¬ChecksumsRight badStat) :=
  ⟨by decide, ⟨by decide, goodStat_right⟩, by decide, badStat_wrong⟩
-- DecodeAbsAngle and DecodeCalAngle: 10 bytes are too few, 11 are enough
theorem witness_DecodeAngles :
    (Framed [0xFF, 0xFF, 10, 1, 0x44, 0, 0, 0, 0, 0] ∧ [0xFF, 0xFF, 10, 1, 0x44, 0, 0, 0, 0, (0 : Byte)].length < 11) ∧
    (Framed [0xFF, 0xFF, 11, 1, 0x44, 0, 0, 0, 0, 0xFF, 0xFF] ∧
      11 ≤ [0xFF, 0xFF, 11, 1, 0x44, 0, 0, 0, 0, 0xFF, (0xFF : Byte)].length) := by decide
theorem witness_DecodeStatusReadsTheLastTwoBytes :
    (Framed [0xFF, 0xFF, 8, 1, 0x47, 0, 0, 0] ∧ [0xFF, 0xFF, 8, 1, 0x47, 0, 0, (0 : Byte)].length < 9) ∧
    (goodStat = [0xFF, 0xFF, 9, 1, 0x47, 0x0E, 0xF0] ++ [0x00, 0x41] ∧ Framed goodStat ∧ 9 ≤ goodStat.length) := by decide
theorem witness_ResponseRowsAreDecoded :
    ((strict []).Accepts goodStat ∧ ¬(strict []).Accepts badStat) ∧
    ((strict []).Accepts goodPosition ∧ ¬(strict []).Accepts badPosition) ∧ (bench []).Accepts badStat :=
  ⟨⟨strict_accepts _ _ goodStat_right, strict_rejects _ _ badStat_wrong⟩,
    ⟨strict_accepts _ _ goodPosition_right, strict_rejects _ _ badPosition_wrong⟩, bench_accepts _ _⟩
-- the writes of SetLed .. RunMotion and of FixedFrameRows: success, failures after none, some and all of the frame, and one
-- that never returns
theorem witness_writes :
    (bench []).th.nextWrite = .success ∧ (rigged [] [.failure 0] []).th.nextWrite = .failure 0 ∧
    (rigged [] [.failure 9] []).th.nextWrite = .failure 9 ∧ (rigged [] [.never 3] []).th.nextWrite = .never 3 ∧
    (bench []).busy = false ∧ (rigged [] [.failure 0] []).busy = false ∧ (rigged [] [.never 3] []).busy = false := by decide
theorem witness_SetLedWritesItsFrame :
    ((254 : Byte) ≠ 255 ∧ ((4 : Byte) = 1 ∨ (4 : Byte) = 2 ∨ (4 : Byte) = 4)) ∧ (255 : Byte) = 255 ∧
    ((3 : Byte) ≠ 1 ∧ (3 : Byte) ≠ 2 ∧ (3 : Byte) ≠ 4) := by decide
theorem witness_SetAcknowledgePolicyWritesItsFrame :
    ((0 : Byte) ≠ 255 ∧ (2 : Byte).toNat ≤ 2) ∧ 2 < (3 : Byte).toNat := by decide
theorem witness_SetControlModeWritesItsFrame :
    ((254 : Byte) ≠ 255 ∧ (1 : Byte).toNat ≤ 1) ∧ 1 < (2 : Byte).toNat := by decide
theorem witness_SetTorqueWritesItsFrame :
    ((254 : Byte) ≠ 255 ∧
      ((2 : Byte) = 0 ∧ (0x60 : Byte) = 0x00 ∨ (2 : Byte) = 1 ∧ (0x60 : Byte) = 0x40 ∨ (2 : Byte) = 2 ∧ (0x60 : Byte) = 0x60)) ∧
    2 < (3 : Byte).toNat := by decide
theorem witness_RunMotionWritesItsFrame : motionWitness := witness_MarshalSjogLaysOutOrRefuses
theorem witness_FixedFrameRowsAreEmitted :
    (∀ i ∈ [Instr.ramWriteSetLed 254 4, .ramWriteSetAcknowledgePolicy 0 2, .ramWriteSetControlMode 1 1, .ramWriteSetTorque 1 2,
      .ramReadGetAbsoluteAngle 254, .ramReadGetCalibratedAngle 0, .statGetStatus 254, .ramWriteClearStatus 254,
      .sJogRunMotion 255 [⟨1023, 4, 1, 254⟩]], (firstRequest (bench []).params i).isSome = true) ∧
    (∀ i ∈ [Instr.ramWriteSetLed 254 3, .ramWriteSetAcknowledgePolicy 0 3, .ramWriteSetControlMode 1 2, .ramWriteSetTorque 1 3,
      .ramReadGetAbsoluteAngle 255, .ramReadGetCalibratedAngle 255, .statGetStatus 255, .ramWriteClearStatus 255,
      .sJogRunMotion 255 []], firstRequest (bench []).params i = none) ∧
    (∃ e ∈ [(⟨1024, 1, 0, 1⟩ : JogEntry)], ¬(e.withTime 0).InRange) ∧
    (62 ≤ (List.replicate 62 (⟨0, 1, 0, 1⟩ : JogEntry)).length ∧
      ∀ e ∈ List.replicate 62 (⟨0, 1, 0, 1⟩ : JogEntry), (e.withTime 0).InRange) ∧
    ((List.replicate 61 (⟨1023, 4, 1, 254⟩ : JogEntry)) ≠ [] ∧ (List.replicate 61 (⟨1023, 4, 1, 254⟩ : JogEntry)).length ≤ 61 ∧
      ∀ e ∈ List.replicate 61 (⟨1023, 4, 1, 254⟩ : JogEntry), (e.withTime 255).InRange) := by decide
-- GetAbsoluteAngle and GetCalibratedAngle: motor_id 255; a failed write, and one that never returns; a failed read; a read that never returns, and one
-- whose 13 bytes do not come; no frame; wrong checksums; and a value, with verification off and on
theorem witness_GetAngles :
    ((rigged [] [.failure 5] []).th.nextWrite = .failure 5 ∧ (rigged [] [.never 5] []).th.nextWrite = .never 5) ∧
    (rigged goodPosition [.success] [⟨.fails, 13⟩]).th.nextRead.ending = .fails ∧
    (rigged goodPosition [.success] [⟨.never, 0⟩]).th.nextRead.ending = .never ∧
    ((bench (goodPosition.take 12)).th.nextRead.ending = .returns ∧ (bench (goodPosition.take 12)).th.rx.length < 13) ∧
    ((bench (0 :: goodPosition)).Delivers (0 :: goodPosition.take 12) ∧ (0 :: goodPosition.take 12).length = 13 ∧
      ¬Framed (0 :: goodPosition.take 12)) ∧
    ((strict badPosition).Delivers badPosition ∧ badPosition.length = 13 ∧ Framed badPosition ∧
      ¬(strict badPosition).Accepts badPosition) ∧
    ((bench badPosition).th.nextWrite = .success ∧ (bench badPosition).Delivers badPosition ∧
      (bench badPosition).Accepts badPosition) ∧
    ((strict goodPosition).Delivers goodPosition ∧ goodPosition.length = 13 ∧ Framed goodPosition ∧
      (strict goodPosition).Accepts goodPosition) :=
  ⟨by decide, by decide, by decide, by decide, by decide,
    ⟨by decide, by decide, by decide, strict_rejects _ _ badPosition_wrong⟩,
    ⟨by decide, by decide, bench_accepts _ _⟩, by decide, by decide, by decide, strict_accepts _ _ goodPosition_right⟩
theorem witness_GetStatusReturnsBothBytes :
    ((rigged [] [.failure 5] []).th.nextWrite = .failure 5 ∧ (rigged [] [.never 5] []).th.nextWrite = .never 5) ∧
    (rigged goodStat [.success] [⟨.fails, 9⟩]).th.nextRead.ending = .fails ∧
    (rigged goodStat [.success] [⟨.never, 0⟩]).th.nextRead.ending = .never ∧
    ((bench (goodStat.take 8)).th.nextRead.ending = .returns ∧ (bench (goodStat.take 8)).th.rx.length < 9) ∧
    ((bench noFrame).Delivers noFrame ∧ noFrame.length = 9 ∧ ¬Framed noFrame) ∧
    ((strict badStat).Delivers badStat ∧ badStat.length = 9 ∧ Framed badStat ∧ ¬(strict badStat).Accepts badStat) ∧
    ((bench badStat).th.nextWrite = .success ∧ (bench badStat).Delivers badStat ∧ Framed badStat ∧
      (bench badStat).Accepts badStat) :=
  ⟨by decide, by decide, by decide, by decide, by decide,
    ⟨by decide, by decide, by decide, strict_rejects _ _ badStat_wrong⟩, by decide, by decide, by decide, bench_accepts _ _⟩
theorem witness_ClearStatusZeroesThenReturnsTheStatus :
    ((rigged [] [.failure 10] []).th.nextWrite = .failure 10 ∧ (rigged [] [.never 0] []).th.nextWrite = .never 0) ∧
    (strict goodStat).th.nextWrite = .success ∧
    ((strict goodStat).th.wrote (wireFrame 1 0x03 [48, 2, 0, 0])).nextWrite = .success ∧
    (strict goodStat).Delivers goodStat ∧ goodStat.length = 9 ∧ Framed goodStat ∧ (strict goodStat).Accepts goodStat :=
  ⟨by decide, by decide, by decide, by decide, by decide, by decide, strict_accepts _ _ goodStat_right⟩
theorem witness_SessionOperationsExpandAsTabled :
    (∃ t, exec (.ramWriteClearStatus 254) (bench goodStat) = .next t ∧ t.ret = some (.ok .unit)) ∧
    ((bench goodPosition).Delivers goodPosition ∧ goodPosition.length = 13 ∧
      (∃ t, exec (.ramReadGetAbsoluteAngle 1) (bench goodPosition) = .next t ∧ t.ret = some (.ok .unit)) ∧
      (∃ t, exec (.ramReadGetCalibratedAngle 1) (bench goodPosition) = .next t ∧ t.ret = some (.ok .unit))) ∧
    ((bench goodStat).Delivers goodStat ∧ goodStat.length = 9 ∧
      (∃ t, exec (.statGetStatus 1) (bench goodStat) = .next t ∧ t.ret = some (.ok .unit))) :=
  ⟨⟨_, rfl, by decide⟩, ⟨by decide, by decide, ⟨_, rfl, by decide⟩, _, rfl, by decide⟩, by decide, by decide, _, rfl, by decide⟩
theorem witness_InvalidArgumentLeavesNoTrace :
    ((0 : Byte).toNat < 1 ∧ 9 < (10 : Byte).toNat) ∧ ((3 : Byte) ≠ 1 ∧ (3 : Byte) ≠ 2 ∧ (3 : Byte) ≠ 4) ∧
    2 < (3 : Byte).toNat ∧ 1 < (2 : Byte).toNat ∧ (255 : Byte) = 255 ∧ [lowEntry].length < 2 ∧
    (∃ e ∈ [(⟨1, 1024, 0, 1, 0⟩ : MotionCommand)].take 1, ¬e.InRange) := by decide
theorem witness_PayloadTooLargeLeavesNoTrace :
    (1 ≤ (1 : Byte).toNat ∧ (9 : Byte).toNat ≤ 9 ∧ 248 < (List.replicate 249 (0 : Byte)).length ∧
      246 < (List.replicate 247 (0 : Byte)).length) ∧
    (62 ≤ (List.replicate 62 lowEntry).length ∧ ∀ e ∈ (List.replicate 62 lowEntry).take 62, e.InRange) :=
  ⟨by decide +kernel, by decide⟩
theorem witness_FailedWriteSendsOnlyAPrefix :
    firstRequest (bench []).params (.clearStatus 254) = some (wireFrame 254 0x03 [48, 2, 0, 0]) ∧
    (rigged [] [.failure 0] []).th.nextWrite = .failure 0 := by decide
/-- The error an instruction ends with. -/
def endsWith (i : Instr) (s : State) : Option Err :=
  match (after (exec i s)).bind State.ret with
  | some (.error e) => some e
  | _ => none

-- one state for each error, a failed second write of clear_status among them
theorem witness_ErrorsLeaveTheTabledEffect :
    endsWith (.setTorque 1 3) (bench []) = some .invalidArgument ∧
    endsWith (.runMotion (List.replicate 62 lowEntry) 62) (bench []) = some .payloadTooLarge ∧
    endsWith (.clearStatus 1) (rigged [] [.success, .failure 7] []) = some .transportError ∧
    endsWith (.getStatus 1) (rigged goodStat [.success] [⟨.fails, 9⟩]) = some .transportError ∧
    endsWith (.getStatus 1) (bench noFrame) = some .malformed ∧
    endsWith (.clearStatus 1) (strict badStat) = some .corrupt ∧
    endsWith (.decodeStatus noFrame) (bench []) = some .malformed ∧
    (writesTransport (.getStatus 1) = true ∧ isCodec (.decodeStatus noFrame) = true) := by decide

/-- A session with one byte of an answer missing, and one whose read the environment never ends. -/
def starved : State :=
  { rigged (List.replicate 12 0xFF) [.success] [⟨.returns, 0⟩] with script := [.op [0x14, 254]] }
def stuck : State := { rigged goodStat [.success] [⟨.never, 3⟩] with script := [.op [0x16, 1]] }

def stuckClear : State := { bench [] with script := [.op [0x17, 1]] }

theorem witness_BlockedReadHangsForEver :
    (starved.nextEntry = some (.op [0x14, 254]) ∧ decode starved.params (.op [0x14, 254]) = .ok (.getAbsoluteAngle 254) ∧
      requestBytes starved.params (.getAbsoluteAngle 254) = some (wireFrame 254 0x04 [60, 2]) ∧
      starved.th.nextWrite = .success ∧ starved.th.nextRead.ending = .returns ∧
      starved.th.rx.length < responseLen (.getAbsoluteAngle 254)) ∧
    (stuck.nextEntry = some (.op [0x16, 1]) ∧ decode stuck.params (.op [0x16, 1]) = .ok (.getStatus 1) ∧
      requestBytes stuck.params (.getStatus 1) = some (wireFrame 1 0x07 []) ∧ stuck.th.nextWrite = .success ∧
      stuck.th.nextRead.ending = .never) ∧
    (stuckClear.nextEntry = some (.op [0x17, 1]) ∧ decode stuckClear.params (.op [0x17, 1]) = .ok (.clearStatus 1) ∧
      (requestBytes stuckClear.params (.clearStatus 1)).isSome = true ∧ stuckClear.th.nextWrite = .success ∧
      (stuckClear.th.wrote []).nextWrite = .success ∧ stuckClear.th.nextRead.ending = .returns ∧
      stuckClear.th.rx.length < responseLen (.clearStatus 1)) :=
  ⟨⟨by decide, rfl, by decide, by decide, by decide, by decide⟩, ⟨by decide, rfl, by decide, by decide, by decide⟩,
    by decide, rfl, by decide, by decide, by decide, by decide, by decide⟩

/-- A session whose first write never returns, and one whose second write of `clear_status` never does. -/
def jammed : State := { rigged [1] [.never 4] [] with script := [.op [0x10, 254, 4]] }
def jammedClear : State := { rigged [1] [.success, .never 2] [] with script := [.op [0x17, 1]] }

theorem witness_BlockedWriteHangsForEver :
    (firstRequest jammed.params (.setLed 254 4) = some (wireFrame 254 0x03 [53, 1, 4]) ∧
      jammed.nextEntry = some (.op [0x10, 254, 4]) ∧ decode jammed.params (.op [0x10, 254, 4]) = .ok (.setLed 254 4) ∧
      jammed.th.nextWrite = .never 4) ∧
    (firstRequest jammedClear.params (.clearStatus 1) = some (wireFrame 1 0x03 [48, 2, 0, 0]) ∧
      jammedClear.nextEntry = some (.op [0x17, 1]) ∧ decode jammedClear.params (.op [0x17, 1]) = .ok (.clearStatus 1) ∧
      jammedClear.th.nextWrite = .success ∧
      (jammedClear.th.wrote (wireFrame 1 0x03 [48, 2, 0, 0])).nextWrite = .never 2) :=
  ⟨⟨by decide, by decide, rfl, by decide⟩, by decide, by decide, rfl, by decide, by decide⟩
-- R22, R31: some prefix of the frame of R131 (of the second frame of R138) is on TX, RX keeps its byte, BUSY is 1
theorem test_blockedWrite :
    (after (step jammed)).map (fun t => (t.th.tx, t.th.rx, t.busy, t.ret.isNone)) =
      some ([0xFF, 0xFF, 0x0A, 0xFE], [1], true, true) ∧
    (after (step jammedClear)).map (fun t => (t.th.tx, t.th.rx, t.busy, t.ret.isNone)) =
      some ([0xFF, 0xFF, 0x0B, 1, 3, 0x3A, 0xC4, 0x30, 2, 0, 0, 0xFF, 0xFF], [1], true, true) := by decide
theorem witness_OnlyTabledErrorsOccur :
    ∃ t, exec (.runMotion (List.replicate 62 lowEntry) 62) (bench []) = .next t ∧ t.ret = some (.error .payloadTooLarge) :=
  ⟨_, rfl, by decide⟩
theorem witness_OutputPortsCarryTheResult :
    (bench []).ret = none ∧ ((bench []).finish (.error .corrupt)).ret = some (.error .corrupt) ∧
    ((bench []).finish (.ok (.calAngle 2047 1023))).ret = some (.ok (.calAngle 2047 1023)) := by decide
theorem witness_CodecOperationsTouchNothing : isCodec (.decodeStatus noFrame) = true ∧ (bench []).busy = false := by decide
theorem witness_StreamsOnlyGrowAndShrink :
    (∃ t, exec (.clearStatus 1) (bench goodStat) = .next t) ∧ responseLen (.runMotion [] 0) = 0 ∧
    isCodec (.stat 1 []) = true := ⟨⟨_, rfl⟩, rfl, rfl⟩
theorem witness_BusyRefusesEveryOperation : (bench []).start.busy = true := rfl
theorem witness_EarlierResultsHaveNoEffect :
    let s := bench goodStat
    let s' := { s with ret := some (.error .malformed), ghostFault := true, opi := 7 }
    s.busy = s'.busy ∧ s.th = s'.th ∧ s.params = s'.params ∧ ∃ t, exec (.getStatus 1) s = .next t :=
  ⟨rfl, rfl, rfl, _, rfl⟩
theorem witness_StepRunsTheDecodedInstruction :
    (bench []).nextEntry = none ∧
    (stuck.nextEntry = some (.op [0x16, 1]) ∧ ∃ t, exec (.getStatus 1) stuck = .next t ∧ t.busy = true) ∧
    (∃ t, exec (.setLed 255 4) (bench []) = .next t ∧ t.busy = false) ∧
    exec (.getStatus 1) stuck.start = .refused .busy :=
  ⟨rfl, ⟨rfl, _, rfl, rfl⟩, ⟨_, rfl, rfl⟩, rfl⟩
theorem witness_ScriptIsImmutableAndIndexAdvances :
    (∃ t, step stuck = .next t ∧ t.busy = true) ∧
    (∃ t, step { bench [] with script := [.op [0x10, 255, 4]] } = .next t ∧ t.busy = false) :=
  ⟨⟨_, rfl, rfl⟩, _, rfl, rfl⟩
theorem witness_UnknownOpselIsRefused :
    State.nextEntry { bench [] with script := [.op [0x0F, 1]] } = some (.op [0x0F, 1]) ∧
    (0x0F : Byte).toNat ∈ [5, 6, 7, 15] ∧ 24 < (0x19 : Byte).toNat ∧ 24 < (0xFF : Byte).toNat := by decide
theorem witness_DecodeInvertsEncode :
    WellFormed (.runMotion [highEntry] 65535) = true ∧ WellFormed (.sJogRunMotion 255 [⟨1023, 4, 1, 254⟩]) = true ∧
    WellFormed (.reboot 255 (List.replicate 248 0xFF)) = true := by decide +kernel
theorem witness_EncodeInvertsDecode :
    decode params0 (.frame [0xFF, 0xFF, 0x07, 0xFD, 0x07, 0xFC, 0x02]) = .ok (.stat 253 []) := rfl
theorem witness_EveryStepKeepsTheInvariant : ∃ s t : State, s.Inv ∧ step s = .next t ∧ t.th.tx ≠ [] := by
  refine ⟨{ bench [] with script := [.op [0x10, 254, 4]] }, _, ?_, rfl, by decide⟩
  exact { sent := ⟨[], by simp, rfl⟩, whole := fun _ _ => ⟨[], by simp, rfl⟩, noResult := fun h => absurd h (by decide),
          unfinished := fun h => absurd h (by decide), inScript := Nat.zero_le _ }

end Sys2Proof.Tests
end

section
/-! SUPPORT. The step and the ports by their cases, a write by the environment's choice, and the request of `run_motion`
(41_framer.md R97, 43_session.md R139) against the rules' own frame (Safety.lean). -/

namespace Sys2Proof.Machine

theorem step_of_end {s : State} (h : s.nextEntry = none) : step s = .fault .scriptEnded := by
  simp only [step, h]

theorem step_of_next {s t : State} {e : Entry} {i : Instr} (he : s.nextEntry = some e)
    (hd : decode s.params e = .ok i) (hx : exec i s = .next t) : step s = .next t.advance := by
  simp only [step, he, hd, hx]

theorem step_of_refused {s : State} {e : Entry} {i : Instr} {r : Refusal} (he : s.nextEntry = some e)
    (hd : decode s.params e = .ok i) (hx : exec i s = .refused r) : step s = .refused r := by
  simp only [step, he, hd, hx]

theorem State.ports_of_ret_none {s : State} (h : s.ret = none) : s.ports = none := by
  simp only [State.ports, h, Option.map_none]

theorem State.ports_of_ret {s : State} {r : Result Value} (h : s.ret = some r) : s.ports = some (portsOf r) := by
  simp only [State.ports, h, Option.map_some]

theorem Transport.afterWrite_of_success {t : Transport} (f : Bytes) (h : t.nextWrite = .success) :
    t.afterWrite f = t.wrote f := by
  simp only [Transport.afterWrite, Transport.wrote, Transport.bytesSent, h]

theorem Transport.afterWrite_of_failure {t : Transport} {k : Nat} (f : Bytes) (h : t.nextWrite = .failure k) :
    t.afterWrite f = t.wrote (f.take k) := by
  simp only [Transport.afterWrite, Transport.wrote, Transport.bytesSent, h]

theorem Transport.afterWrite_of_never {t : Transport} {k : Nat} (f : Bytes) (h : t.nextWrite = .never k) :
    t.afterWrite f = t.wrote (f.take k) := by
  simp only [Transport.afterWrite, Transport.wrote, Transport.bytesSent, h]

end Sys2Proof.Machine

namespace Sys2Proof

theorem targetOk_iff (v : U16) : targetOk v = true ↔ v.toNat ≤ 1023 := decide_eq_true_iff

theorem MotionCommand.ok_iff (e : MotionCommand) : e.ok = true ↔ e.InRange := by
  have hled : (Colour.ofByte? e.led).isSome = true ↔ e.led = 1 ∨ e.led = 2 ∨ e.led = 4 := by
    generalize e.led = c
    revert c
    decide
  have hmode : (Mode.ofByte? e.mode).isSome = true ↔ e.mode = 0 ∨ e.mode = 1 := by
    generalize e.mode = m
    revert m
    decide
  simp only [MotionCommand.ok, MotionCommand.InRange, Bool.and_eq_true, motorIdOk_iff, targetOk_iff,
    hled, hmode, and_assoc]

/-- The four bytes of an entry in range are those of R58 and R59. -/
theorem MotionCommand.jog_bytes {e : MotionCommand} (h : e.InRange) : e.jog.bytes = e.ruleBytes := by
  obtain ⟨-, -, hled, hmode⟩ := h
  have hset : setByte e.mode e.led = BitVec.ofNat 8 (2 * e.mode.toNat + 4 * e.led.toNat) := by
    rcases hled with h | h | h <;> rcases hmode with h' | h' <;> rw [h, h'] <;> rfl
  have hhigh : highByte e.target = BitVec.ofNat 8 (e.target.toNat / 256) := by
    apply BitVec.eq_of_toNat_eq
    simp [highByte, Nat.shiftRight_eq_div_pow]
  have hlow : lowByte e.target = BitVec.ofNat 8 (e.target.toNat % 256) := by
    apply BitVec.eq_of_toNat_eq
    simp [lowByte]
  simp only [JogEntry.bytes, MotionCommand.jog, MotionCommand.ruleBytes, hset, hhigh, hlow]

theorem length_jogPayload (first : MotionCommand) (others : List MotionCommand) :
    (jogPayload first others).length = 1 + 4 * (first :: others).length := by
  have h (es : List MotionCommand) : (es.flatMap MotionCommand.ruleBytes).length = 4 * es.length := by
    induction es with
    | nil => rfl
    | cons e es ih =>
      rw [List.flatMap_cons, List.length_append, ih, List.length_cons]
      simp only [MotionCommand.ruleBytes, List.length_cons, List.length_nil]
      omega
  rw [jogPayload, List.length_cons, h]
  omega

/-- R97 for a count within the list: the operands are checked first, then the size (D25). -/
theorem marshalSjog_of_cons {es others : List MotionCommand} {first : MotionCommand} {n : Nat} (hn : n ≤ es.length)
    (ht : es.take n = first :: others) :
    marshalSjog es n =
      if ∀ e ∈ first :: others, e.InRange then
        if n ≤ 61 then .ok (first.motorId, jogPayload first others) else .error .payloadTooLarge
      else .error .invalidArgument := by
  have hall : (first :: others).all MotionCommand.ok = true ↔ ∀ e ∈ first :: others, e.InRange := by
    simp only [List.all_eq_true, MotionCommand.ok_iff]
  unfold marshalSjog
  rw [if_neg (by omega), ht]
  by_cases hr : ∀ e ∈ first :: others, e.InRange
  · have hbytes : (first :: others).flatMap (fun e => e.jog.bytes) = (first :: others).flatMap MotionCommand.ruleBytes :=
      List.flatMap_congr fun e he => MotionCommand.jog_bytes (hr e he)
    simp only [hall.2 hr, hbytes, if_pos hr, Config.maxPayload, jogPayload, Bool.not_true, Bool.false_eq_true, if_false]
    by_cases h61 : n ≤ 61
    · rw [if_pos h61, if_neg (by omega)]
    · rw [if_neg h61, if_pos (by omega)]
  · simp only [Bool.eq_false_iff.2 fun h => hr (hall.1 h), if_neg hr, Bool.not_false, if_true]

theorem marshalSjog_of_length_lt {es : List MotionCommand} {n : Nat} (h : es.length < n) :
    marshalSjog es n = .error .invalidArgument := by
  rw [marshalSjog, if_pos h]

theorem marshalSjog_of_take_nil {es : List MotionCommand} {n : Nat} (h : es.take n = []) :
    marshalSjog es n = .error .invalidArgument := by
  rw [marshalSjog, h]
  split <;> rfl

/-- R139 for a count within the list. -/
theorem motionRequest_of_cons {es others : List MotionCommand} {first : MotionCommand} {n : Nat} (hn : n ≤ es.length)
    (ht : es.take n = first :: others) :
    motionRequest es n =
      if ∀ e ∈ first :: others, e.InRange then
        if n ≤ 61 then .ok (wireFrame first.motorId 0x06 (jogPayload first others)) else .error .payloadTooLarge
      else .error .invalidArgument := by
  have hcount : (first :: others).length = n := by rw [← ht, List.length_take, Nat.min_eq_left hn]
  rw [motionRequest, marshalSjog_of_cons hn ht]
  split_ifs with hr h61
  · exact encodeRequest_of_legal _ _ _ (by decide) (by decide) (by rw [length_jogPayload, hcount]; omega)
  · rfl
  · rfl

theorem motionRequest_of_marshalSjog_error {es : List MotionCommand} {n : Nat} {e : Err}
    (h : marshalSjog es n = .error e) : motionRequest es n = .error e := by
  rw [motionRequest, h]

theorem motionFrame_of_cons {es others : List MotionCommand} {first : MotionCommand} {n : Nat} (hn : n ≤ es.length)
    (ht : es.take n = first :: others) :
    motionFrame es n =
      if ∀ e ∈ first :: others, e.InRange then
        if n ≤ 61 then some (wireFrame first.motorId 0x06 (jogPayload first others)) else none
      else none := by
  simp only [motionFrame, ht, hn, true_and, and_comm (a := n ≤ 61), ite_and]

/-- `run_motion` frames its operands exactly where R97 accepts them. -/
theorem motionRequest_eq_ok_iff (es : List MotionCommand) (n : Nat) (f : Bytes) :
    motionRequest es n = .ok f ↔ motionFrame es n = some f := by
  cases ht : es.take n with
  | nil => simp [motionRequest_of_marshalSjog_error (marshalSjog_of_take_nil ht), motionFrame, ht]
  | cons first others =>
    by_cases hn : n ≤ es.length
    · rw [motionRequest_of_cons hn ht, motionFrame_of_cons hn ht]
      split_ifs <;> simp
    · simp [motionRequest_of_marshalSjog_error (marshalSjog_of_length_lt (not_le.1 hn)), motionFrame, ht, hn]

theorem acceptedOr_eq_ok_iff (o : Option Bytes) (f : Bytes) : acceptedOr o = .ok f ↔ o = some f := by
  cases o <;> simp [acceptedOr]

end Sys2Proof
end

section
/-! SUPPORT. The four shapes an instruction's meaning has (10_state.md R10, 43_session.md R130, R138): a proof about every
instruction is a proof about these four. -/

namespace Sys2Proof.Machine

/-- The request is the frame of the rules, exactly where they accept the operands. -/
def Requests (p : Config.Params) (i : Instr) (request : Result Bytes) : Prop :=
  ∀ f, request = .ok f ↔ firstRequest p i = some f

theorem requests_of_eq {p : Config.Params} {i : Instr} {request : Result Bytes}
    (h : request = acceptedOr (firstRequest p i)) : Requests p i request :=
  fun f => h ▸ acceptedOr_eq_ok_iff _ f

/-- What an instruction does in a state: a codec answer, an emission, an exchange, or the two writes and one read of
`clear_status`. -/
inductive ExecShape (s : State) (i : Instr) : Prop where
  | codec (r : Result Value) (kind : isCodec i = true) (silent : firstRequest s.params i = none)
      (meaning : exec i s = answer s r)
  | emission (request : Result Bytes) (kind : isCodec i = false) (noReply : responseLen i = 0)
      (sends : Requests s.params i request) (meaning : exec i s = emit s request)
  | reading (request : Result Bytes) (fields : Bytes → Result Value) (kind : isCodec i = false)
      (reply : 0 < responseLen i) (sends : Requests s.params i request)
      (meaning : exec i s = exchange s request (responseLen i) fields)
  | clearing (id : Byte) (fields : Bytes → Result Value) (name : i = .clearStatus id)
      (sends : Requests s.params i (clearRequest s.params id))
      (meaning : exec i s = exchangeTwo s (clearRequest s.params id) (statusRequest id) (responseLen i) fields)

theorem exec_shape (s : State) (i : Instr) : ExecShape s i := by
  cases i with
  | ramWriteSetLed id c => exact .emission _ rfl rfl (requests_of_eq (ledRequest_eq id c)) rfl
  | setLed id c => exact .emission _ rfl rfl (requests_of_eq (ledRequest_eq id c)) rfl
  | ramWriteSetAcknowledgePolicy id v => exact .emission _ rfl rfl (requests_of_eq (policyRequest_eq _ id v)) rfl
  | setAcknowledgePolicy id v => exact .emission _ rfl rfl (requests_of_eq (policyRequest_eq _ id v)) rfl
  | ramWriteSetControlMode id m => exact .emission _ rfl rfl (requests_of_eq (controlModeRequest_eq _ id m)) rfl
  | setControlMode id m => exact .emission _ rfl rfl (requests_of_eq (controlModeRequest_eq _ id m)) rfl
  | ramWriteSetTorque id m => exact .emission _ rfl rfl (requests_of_eq (torqueRequest_eq _ id m)) rfl
  | setTorque id m => exact .emission _ rfl rfl (requests_of_eq (torqueRequest_eq _ id m)) rfl
  | ramReadGetAbsoluteAngle id => exact .emission _ rfl rfl (requests_of_eq (absoluteAngleRequest_eq id)) rfl
  | ramReadGetCalibratedAngle id => exact .emission _ rfl rfl (requests_of_eq (calibratedAngleRequest_eq id)) rfl
  | statGetStatus id => exact .emission _ rfl rfl (requests_of_eq (statusRequest_eq id)) rfl
  | ramWriteClearStatus id => exact .emission _ rfl rfl (requests_of_eq (clearRequest_eq _ id)) rfl
  | sJogRunMotion t es => exact .emission _ rfl rfl (motionRequest_eq_ok_iff _ _) rfl
  | runMotion es n => exact .emission _ rfl rfl (motionRequest_eq_ok_iff es n) rfl
  | getAbsoluteAngle id => exact .reading _ _ rfl (Nat.succ_pos _) (requests_of_eq (absoluteAngleRequest_eq id)) rfl
  | getCalibratedAngle id => exact .reading _ _ rfl (Nat.succ_pos _) (requests_of_eq (calibratedAngleRequest_eq id)) rfl
  | getStatus id => exact .reading _ _ rfl (Nat.succ_pos _) (requests_of_eq (statusRequest_eq id)) rfl
  | clearStatus id => exact .clearing id _ rfl (requests_of_eq (clearRequest_eq _ id)) rfl
  | _ => exact .codec _ rfl rfl rfl

/-- Every instruction is issued as an operation (R14). -/
theorem exec_eq_issue (s : State) (i : Instr) : ∃ body, exec i s = issue s body := by
  cases exec_shape s i with
  | codec _ _ _ hx => exact ⟨_, hx⟩
  | emission _ _ _ _ hx => exact ⟨_, hx⟩
  | reading _ _ _ _ _ hx => exact ⟨_, hx⟩
  | clearing _ _ _ _ hx => exact ⟨_, hx⟩

theorem exec_of_busy {s : State} (i : Instr) (h : s.busy = true) : exec i s = .refused .busy := by
  obtain ⟨body, hx⟩ := exec_eq_issue s i
  rw [hx, issue_of_busy s body h]

theorem exec_of_isCodec (s : State) {i : Instr} (h : isCodec i = true) : ∃ r, exec i s = answer s r := by
  cases exec_shape s i with
  | codec r _ _ hx => exact ⟨r, hx⟩
  | emission _ hk _ _ _ => simp [hk] at h
  | reading _ _ hk _ _ _ => simp [hk] at h
  | clearing id _ hi _ _ => simp [hi, isCodec, writesTransport] at h

end Sys2Proof.Machine
end

section
/-! PROOFS. State, O39 and O40: what an operation can do to the streams (10_state.md R15, R16, R43). -/

namespace Sys2Proof.Machine

/-- Settles O39: a codec operation is an answer, and an answer in an idle state changes the result and the ghost bit. -/
theorem codecOperationsTouchNothing : Obligations.CodecOperationsTouchNothing := by
  intro s i hi hb
  obtain ⟨r, hx⟩ := exec_of_isCodec s hi
  exact ⟨_, _, hx.trans (answer_of_idle s r hb)⟩

/-- From `s` to `t` in an operation whose response has `n` bytes: TX only grows, RX only loses bytes at the front, and none
where no response is awaited; parameters, script and index are as they were. -/
structure Evolves (n : Nat) (s t : State) : Prop where
  tx : s.th.tx <+: t.th.tx
  rx : t.th.rx <:+ s.th.rx
  unread : n = 0 → t.th.rx = s.th.rx
  params : t.params = s.params
  script : t.script = s.script
  opi : t.opi = s.opi

section
variable {n : Nat} {s t u : State}

theorem Evolves.refl (n : Nat) (s : State) : Evolves n s s :=
  ⟨List.prefix_refl _, List.suffix_refl _, fun _ => rfl, rfl, rfl, rfl⟩

theorem Evolves.trans (h : Evolves n s t) (h' : Evolves n t u) : Evolves n s u where
  tx := h.tx.trans h'.tx
  rx := h'.rx.trans h.rx
  unread hn := (h'.unread hn).trans (h.unread hn)
  params := h'.params.trans h.params
  script := h'.script.trans h.script
  opi := h'.opi.trans h.opi

theorem Evolves.start (h : Evolves n s t) : Evolves n s t.start := ⟨h.tx, h.rx, h.unread, h.params, h.script, h.opi⟩

theorem Evolves.finish (h : Evolves n s t) (r : Result Value) : Evolves n s (t.finish r) :=
  ⟨h.tx, h.rx, h.unread, h.params, h.script, h.opi⟩

theorem Evolves.write (h : Evolves n s t) (f : Bytes) : Evolves n s (t.withTh (t.th.afterWrite f)) :=
  h.trans ⟨Transport.afterWrite_tx_prefix _ _, List.suffix_refl _, fun _ => rfl, rfl, rfl, rfl⟩

theorem Evolves.read (h : Evolves n s t) (hn : 0 < n) : Evolves n s (t.withTh (t.th.afterRead n)) :=
  h.trans ⟨List.prefix_refl _, Transport.afterRead_rx_suffix _ _, fun h0 => absurd h0 hn.ne', rfl, rfl, rfl⟩

theorem Evolves.require {α : Type} {r : Result α} {k : α → State} (h : Evolves n s t) (hk : ∀ a, Evolves n s (k a)) :
    Evolves n s (t.require r k) := by
  cases r with
  | error e => exact h.finish _
  | ok a => exact hk a

theorem Evolves.send {f : Bytes} {k : State → State} (h : Evolves n s t)
    (hk : ∀ u, Evolves n s u → Evolves n s (k u)) : Evolves n s (t.send f k) := by
  obtain (⟨-, ht⟩ | ⟨-, ht⟩) | ⟨-, ht⟩ := State.send_cases t f k
  · exact ht ▸ (h.write f).finish _
  · exact ht ▸ h.write f
  · exact ht ▸ hk _ (h.write f)

theorem Evolves.awaitReply (h : Evolves n s t) (hn : 0 < n) (fields : Bytes → Result Value) :
    Evolves n s (t.awaitReply n fields) := by
  obtain ⟨-, ht⟩ | ⟨-, ht⟩ | ⟨-, ht⟩ := State.awaitReply_cases t n fields
  · exact ht ▸ (h.read hn).finish _
  · exact ht ▸ (h.read hn).finish _
  · exact ht ▸ h.read hn

/-- Every instruction that answers a next state moves the streams forward only. -/
theorem exec_evolves {i : Instr} (h : exec i s = .next t) : Evolves (responseLen i) s t := by
  have hs := Evolves.refl (responseLen i) s
  cases exec_shape s i with
  | codec r _ _ hx =>
    obtain ⟨-, rfl⟩ := answer_next _ _ _ (hx ▸ h)
    exact hs.finish r
  | emission request _ _ _ hx =>
    obtain ⟨-, rfl⟩ := issue_next _ _ _ (hx ▸ h)
    exact hs.start.require fun f => hs.start.send fun u hu => hu.finish _
  | reading request fields _ hn _ hx =>
    obtain ⟨-, rfl⟩ := issue_next _ _ _ (hx ▸ h)
    exact hs.start.require fun f => hs.start.send fun u hu => hu.awaitReply hn fields
  | clearing id fields hi _ hx =>
    obtain ⟨-, rfl⟩ := issue_next _ _ _ (hx ▸ h)
    have hn : 0 < responseLen i := by rw [hi]; exact Nat.succ_pos _
    exact hs.start.require fun f => hs.start.send fun u hu =>
      hu.require fun g => hu.send fun v hv => hv.awaitReply hn fields

end

/-- Settles O40: the streams evolve in every shape of an operation, and a codec answer leaves the transport. -/
theorem streamsOnlyGrowAndShrink : Obligations.StreamsOnlyGrowAndShrink := by
  intro s t i h
  obtain ⟨htx, hrx, hunread, hparams, hscript, hopi⟩ := exec_evolves h
  refine ⟨htx, hrx, hunread, fun hi => ?_, hparams, hscript, hopi⟩
  obtain ⟨r, hx⟩ := exec_of_isCodec s hi
  obtain ⟨-, rfl⟩ := answer_next _ _ _ (hx ▸ h)
  rfl

end Sys2Proof.Machine
end

section
/-! PROOFS. State, O54: an operation whose write never returns (10_state.md R22; log 22). -/

namespace Sys2Proof.Machine

section
variable {s : State} {i : Instr} {f : Bytes}

/-- An accepted operation whose first write never returns stays where that write left it. -/
theorem exec_of_first_write_never (hb : s.busy = false) (hf : firstRequest s.params i = some f)
    (hw : s.th.writeEnding = .never) : exec i s = .next (s.start.withTh (s.th.afterWrite f)) := by
  have hsend (k : State → State) : s.start.send f k = s.start.withTh (s.th.afterWrite f) :=
    State.send_of_never s.start f k hw
  cases exec_shape s i with
  | codec _ _ hnone _ => simp [hnone] at hf
  | emission request _ _ hr hx => rw [hx, (hr f).2 hf, emit, issue_of_idle _ _ hb, State.require_ok, hsend]
  | reading request fields _ _ hr hx => rw [hx, (hr f).2 hf, exchange, issue_of_idle _ _ hb, State.require_ok, hsend]
  | clearing id fields _ hr hx => rw [hx, (hr f).2 hf, exchangeTwo, issue_of_idle _ _ hb, State.require_ok, hsend]

/-- `clear_status` whose second write never returns stays where that write left it (R138). -/
theorem exec_clearStatus_of_second_write_never {id : Byte} (hb : s.busy = false)
    (hf : firstRequest s.params (.clearStatus id) = some f) (hw : s.th.writeEnding = .returns)
    (hw' : (s.th.afterWrite f).writeEnding = .never) :
    exec (.clearStatus id) s =
      .next (s.start.withTh ((s.th.afterWrite f).afterWrite (wireFrame id 0x07 []))) := by
  have hclear : clearRequest s.params id = .ok f := (clearRequest_eq _ id).trans ((acceptedOr_eq_ok_iff _ f).2 hf)
  have hid : id ≠ 255 := by
    rintro rfl
    simp [firstRequest] at hf
  have hstatus : statusRequest id = .ok (wireFrame id 0x07 []) := by
    rw [statusRequest_eq, if_pos hid]
    rfl
  have hx : exec (.clearStatus id) s = exchangeTwo s (clearRequest s.params id) (statusRequest id) Config.statRespLen
      fun b => (decodeStatus b).map .status := rfl
  rw [hx, hclear, hstatus, exchangeTwo, issue_of_idle _ _ hb, State.require_ok, State.send_of_returns s.start f _ hw,
    State.require_ok, State.start_th, State.send_of_never (s.start.withTh (s.th.afterWrite f)) _ _ hw']
  rfl

/-- A step whose operation does not return leaves its entry the next one, with BUSY 1, so no step follows. -/
theorem step_of_unfinished {e : Entry} {th : Transport} (he : s.nextEntry = some e) (hd : decode s.params e = .ok i)
    (hx : exec i s = .next (s.start.withTh th)) :
    step s = .next (s.start.withTh th) ∧ step (s.start.withTh th) = .refused .busy :=
  ⟨(step_of_next he hd hx).trans (by rw [State.advance_of_busy _ rfl]),
    step_of_refused (s := s.start.withTh th) he hd (exec_of_busy i rfl)⟩

end

/-- Settles O54: whichever write blocks, the operation stays after it, and its script entry is refused from then on. -/
theorem blockedWriteHangsForEver : Obligations.BlockedWriteHangsForEver := by
  intro s e i f sent hb hf he hd hblock
  obtain ⟨k, hw, rfl⟩ | ⟨id, k, rfl, hw, hw', rfl⟩ := hblock
  · have hx := exec_of_first_write_never hb hf (Transport.writeEnding_of_never _ k hw)
    rw [Transport.afterWrite_of_never f hw] at hx
    obtain ⟨hstep, hnext⟩ := step_of_unfinished he hd hx
    exact ⟨_, hstep, rfl, rfl, rfl, rfl, rfl, hnext⟩
  · have hfirst := Transport.afterWrite_of_success f hw
    have hx := exec_clearStatus_of_second_write_never hb hf (Transport.writeEnding_of_success _ hw)
      (hfirst ▸ Transport.writeEnding_of_never _ k hw')
    rw [hfirst, Transport.afterWrite_of_never _ hw'] at hx
    obtain ⟨hstep, hnext⟩ := step_of_unfinished he hd hx
    exact ⟨_, hstep, rfl, rfl, rfl, List.append_assoc _ _ _, rfl, hnext⟩

end Sys2Proof.Machine
end

section
/-! PROOFS. State, O44 and O51 to O53: the step (10_state.md R12), the reset state (R23) and the output ports (R11). -/

namespace Sys2Proof.Machine

/-- Settles O44, from the step's three equations. -/
theorem stepRunsTheDecodedInstruction : Obligations.StepRunsTheDecodedInstruction :=
  fun _ => ⟨step_of_end, fun _ _ _ => step_of_next, fun _ _ _ => step_of_refused⟩

theorem framesOrPrefixes_nil : FramesOrPrefixes [] := ⟨[], by simp, rfl⟩

theorem wholeFrames_nil : WholeFrames [] := ⟨[], by simp, rfl⟩

/-- Settles O51: at reset the TX log is empty and BUSY is 0. -/
theorem resetHasTheInvariant : Obligations.ResetHasTheInvariant where
  sent := framesOrPrefixes_nil
  whole _ _ := wholeFrames_nil
  noResult _ := rfl
  unfinished h := Bool.noConfusion h
  inScript := Nat.le_refl 0

/-- Settles O52, from the values `State.create` gives. -/
theorem sessionCreationGivesTheResetState : Obligations.SessionCreationGivesTheResetState :=
  ⟨fun _ _ _ => ⟨rfl, rfl, rfl, State.ports_of_ret_none rfl, rfl⟩, rfl, rfl, State.ports_of_ret_none rfl, rfl⟩

/-- Settles O53, by the kinds of result. -/
theorem outputPortsCarryTheResult : Obligations.OutputPortsCarryTheResult := by
  refine fun s => ⟨State.ports_of_ret_none, fun e h => State.ports_of_ret h, fun v h => ?_⟩
  rw [State.ports_of_ret h]
  cases v <;> rfl

end Sys2Proof.Machine
end

section
/-! PROOFS. Memory, O34: an operation whose first write fails (20_memory.md R31, 60_exceptions.md R162). -/

namespace Sys2Proof.Machine

section
variable {s : State} {i : Instr} {f : Bytes}

/-- An accepted operation starts with the write of its first frame (R130 phase 3), whatever it does after it. -/
theorem exec_of_firstRequest (hb : s.busy = false) (hf : firstRequest s.params i = some f) :
    ∃ k, exec i s = .next (s.start.send f k) := by
  cases exec_shape s i with
  | codec _ _ hnone _ => simp [hnone] at hf
  | emission request _ _ hr hx => exact ⟨_, by rw [hx, (hr f).2 hf, emit, issue_of_idle _ _ hb, State.require_ok]⟩
  | reading request fields _ _ hr hx =>
    exact ⟨_, by rw [hx, (hr f).2 hf, exchange, issue_of_idle _ _ hb, State.require_ok]⟩
  | clearing id fields _ hr hx =>
    exact ⟨_, by rw [hx, (hr f).2 hf, exchangeTwo, issue_of_idle _ _ hb, State.require_ok]⟩

/-- An operation that started idle and has only used the transport changes, as it returns, the transport, the result and the
ghost bit. -/
theorem State.finish_withTh_start (th : Transport) (r : Result Value) (hb : s.busy = false) :
    (s.start.withTh th).finish r = { s with th := th, ret := some r, ghostFault := s.ghostFault || isGhostFault r } := by
  cases s
  subst hb
  rfl

end

/-- Settles O34: the operation ends at its first write, which has put the first bytes of the frame on TX. -/
theorem failedWriteSendsOnlyAPrefix : Obligations.FailedWriteSendsOnlyAPrefix := by
  intro s i f k hb hf hw
  obtain ⟨rest, hx⟩ := exec_of_firstRequest hb hf
  have hfails : s.start.th.writeEnding = .fails := Transport.writeEnding_of_failure _ k hw
  rw [hx, State.send_of_fails _ _ _ hfails, State.finish_withTh_start _ _ hb, State.start_th,
    Transport.afterWrite_of_failure f hw, isGhostFault_error, Err.isGhostFault, Bool.or_true]

end Sys2Proof.Machine
end

section
/-! PROOFS. Memory, O45: what a step does to the script, the parameters and the index (10_state.md R12, R46). -/

namespace Sys2Proof.Machine

section
variable {s t : State}

/-- The only next state of a step is that of the instruction at `opi`, with the index moved on where it has returned. -/
theorem step_next (h : step s = .next t) :
    ∃ e i u, s.nextEntry = some e ∧ decode s.params e = .ok i ∧ exec i s = .next u ∧ t = u.advance := by
  unfold step at h
  split at h
  · cases h
  next e he =>
    split at h
    · cases h
    next i hd =>
      split at h
      next u hx => exact ⟨e, i, u, he, hd, hx, by cases h; rfl⟩
      · cases h
      · cases h

end

/-- Settles O45: the instruction leaves script, parameters and index, and `advance` moves the index of an idle state. -/
theorem scriptIsImmutableAndIndexAdvances : Obligations.ScriptIsImmutableAndIndexAdvances := by
  intro s t h
  obtain ⟨e, i, u, -, -, hx, rfl⟩ := step_next h
  have hev := exec_evolves hx
  rw [State.advance_script, State.advance_params, State.advance_busy]
  refine ⟨hev.script, hev.params, fun hb => ?_, fun hb => ?_⟩
  · rw [State.advance_of_idle u hb, hev.opi]
  · rw [State.advance_of_busy u hb, hev.opi]

end Sys2Proof.Machine
end

section
/-! SUPPORT. The frames on TX (20_memory.md R31): what a write adds to a log of frames, and that whatever an instruction
writes is a frame of `encode_request`. -/

namespace Sys2Proof.Machine

theorem FramesOrPrefixes.append {tx f g : Bytes} (h : FramesOrPrefixes tx) (hg : IsRequestFrame g) (hf : f <+: g) :
    FramesOrPrefixes (tx ++ f) := by
  obtain ⟨fs, hfs, rfl⟩ := h
  refine ⟨fs ++ [f], fun x hx => ?_, by simp⟩
  obtain hx | hx := List.mem_append.1 hx
  · exact hfs x hx
  · exact ⟨g, hg, List.mem_singleton.1 hx ▸ hf⟩

theorem WholeFrames.append {tx f : Bytes} (h : WholeFrames tx) (hf : IsRequestFrame f) : WholeFrames (tx ++ f) := by
  obtain ⟨fs, hfs, rfl⟩ := h
  refine ⟨fs ++ [f], fun x hx => ?_, by simp⟩
  obtain hx | hx := List.mem_append.1 hx
  · exact hfs x hx
  · exact List.mem_singleton.1 hx ▸ hf

theorem isRequestFrame_wireFrame {id cmd : Byte} {payload : Bytes} (hmin : 1 ≤ cmd.toNat) (hmax : cmd.toNat ≤ 9)
    (hfits : payload.length ≤ 248) : IsRequestFrame (wireFrame id cmd payload) :=
  ⟨id, cmd, payload, encodeRequest_of_legal id cmd payload hmin hmax hfits⟩

theorem isRequestFrame_of_motionFrame {es : List MotionCommand} {n : Nat} {f : Bytes} (h : motionFrame es n = some f) :
    IsRequestFrame f := by
  have hr := (motionRequest_eq_ok_iff es n f).2 h
  unfold motionRequest at hr
  split at hr
  next id payload _ => exact ⟨id, _, payload, hr⟩
  · cases hr

/-- A frame of fixed layout that the rules send where the operands are accepted. -/
theorem isRequestFrame_of_guarded {accepted : Prop} [Decidable accepted] {id cmd : Byte} {payload f : Bytes}
    (hmin : 1 ≤ cmd.toNat) (hmax : cmd.toNat ≤ 9) (hfits : payload.length ≤ 248)
    (h : (if accepted then some (wireFrame id cmd payload) else none) = some f) : IsRequestFrame f := by
  obtain ⟨-, h⟩ := Option.ite_none_right_eq_some.1 h
  cases h
  exact isRequestFrame_wireFrame hmin hmax hfits

theorem isRequestFrame_of_torque {id register mode : Byte} {f : Bytes}
    (h : (if id ≠ 255 then (torqueWire mode).map fun t => wireFrame id 0x03 [register, 1, t] else none) = some f) :
    IsRequestFrame f := by
  obtain ⟨-, h⟩ := Option.ite_none_right_eq_some.1 h
  obtain ⟨t, -, rfl⟩ := Option.map_eq_some_iff.1 h
  exact isRequestFrame_wireFrame (by decide) (by decide) (by simp)

theorem isRequestFrame_of_firstRequest {p : Config.Params} {i : Instr} {f : Bytes} (h : firstRequest p i = some f) :
    IsRequestFrame f := by
  cases i with
  | setLed | ramWriteSetLed | setAcknowledgePolicy | ramWriteSetAcknowledgePolicy | setControlMode
  | ramWriteSetControlMode | getAbsoluteAngle | ramReadGetAbsoluteAngle | getCalibratedAngle
  | ramReadGetCalibratedAngle | getStatus | statGetStatus | clearStatus | ramWriteClearStatus =>
    exact isRequestFrame_of_guarded (by decide) (by decide) (by simp) h
  | setTorque | ramWriteSetTorque => exact isRequestFrame_of_torque h
  | runMotion | sJogRunMotion => exact isRequestFrame_of_motionFrame h
  | _ => cases h

theorem Requests.isRequestFrame {p : Config.Params} {i : Instr} {request : Result Bytes} (h : Requests p i request) :
    ∀ f, request = .ok f → IsRequestFrame f :=
  fun f hf => isRequestFrame_of_firstRequest ((h f).1 hf)

theorem isRequestFrame_of_statusRequest (id : Byte) : ∀ f, statusRequest id = .ok f → IsRequestFrame f := by
  intro f hf
  rw [statusRequest_eq, acceptedOr_eq_ok_iff] at hf
  exact isRequestFrame_of_guarded (by decide) (by decide) (by simp) hf

end Sys2Proof.Machine
end

section
/-! PROOFS. Memory, O50: the invariant of every run (20_memory.md R31, 10_state.md R15, 70_reset_and_hazards.md R189). The
invariant is carried through the phases of an operation by two predicates: one for a state between two phases, one for the
state an operation leaves. -/

namespace Sys2Proof.Machine

/-- Between two phases of an operation: BUSY is 1, there is no result, and TX is as in the invariant of an idle state. -/
structure InProgress (t : State) : Prop where
  busy : t.busy = true
  ret : t.ret = none
  sent : FramesOrPrefixes t.th.tx
  whole : t.ghostFault = false → WholeFrames t.th.tx

/-- What an operation leaves, whether it has returned or not: the clauses of the invariant about TX and the result. -/
structure LeftByOperation (t : State) : Prop where
  sent : FramesOrPrefixes t.th.tx
  whole : t.busy = false → t.ghostFault = false → WholeFrames t.th.tx
  noResult : t.busy = true → t.ret = none

section
variable {s t u : State}

theorem State.Inv.start (h : s.Inv) (hb : s.busy = false) : InProgress s.start := ⟨rfl, rfl, h.sent, h.whole hb⟩

/-- An operation may return in any phase, with a result or an error. -/
theorem InProgress.finish (h : InProgress t) (r : Result Value) : LeftByOperation (t.finish r) where
  sent := h.sent
  whole _ hg := by
    rw [State.finish_ghostFault, Bool.or_eq_false_iff] at hg
    exact h.whole hg.1
  noResult hb := Bool.noConfusion hb

/-- An operation may be left in any phase by a call that never returns. -/
theorem InProgress.blocked (h : InProgress t) : LeftByOperation t where
  sent := h.sent
  whole hb := by simp [h.busy] at hb
  noResult _ := h.ret

theorem InProgress.write {f : Bytes} (h : InProgress t) (hf : IsRequestFrame f) (hw : t.th.writeEnding = .returns) :
    InProgress (t.withTh (t.th.afterWrite f)) := by
  have htx : (t.th.afterWrite f).tx = t.th.tx ++ f := by
    rw [Transport.afterWrite_tx, Transport.bytesSent_of_returns _ _ hw]
  refine ⟨h.busy, h.ret, ?_, fun hg => ?_⟩
  · rw [State.withTh_th, htx]
    exact h.sent.append hf (List.prefix_refl f)
  · rw [State.withTh_th, htx]
    exact (h.whole hg).append hf

theorem InProgress.read (h : InProgress t) (n : Nat) : InProgress (t.withTh (t.th.afterRead n)) :=
  ⟨h.busy, h.ret, h.sent, h.whole⟩

/-- A write that does not succeed leaves the first bytes of the frame on TX: it ends the operation with an error that the
ghost bit records, or BUSY stays 1. -/
theorem InProgress.writeStops {f : Bytes} (h : InProgress t) (hf : IsRequestFrame f) (hu : SendStops t u f) :
    LeftByOperation u := by
  have hsent : FramesOrPrefixes (t.th.afterWrite f).tx := h.sent.append hf (Transport.bytesSent_prefix _ f)
  obtain ⟨-, rfl⟩ | ⟨-, rfl⟩ := hu
  · exact ⟨hsent, fun _ hg => by simp [Err.isGhostFault] at hg, fun hb => Bool.noConfusion hb⟩
  · exact ⟨hsent, fun hb => by simp [h.busy] at hb, fun _ => h.ret⟩

theorem InProgress.require {α : Type} {r : Result α} {k : α → State} (h : InProgress t)
    (hk : ∀ a, r = .ok a → LeftByOperation (k a)) : LeftByOperation (t.require r k) := by
  cases r with
  | error e => exact h.finish _
  | ok a => exact hk a rfl

theorem InProgress.send {f : Bytes} {k : State → State} (h : InProgress t) (hf : IsRequestFrame f)
    (hk : ∀ u, InProgress u → LeftByOperation (k u)) : LeftByOperation (t.send f k) := by
  obtain hstops | ⟨hw, ht⟩ := State.send_cases t f k
  · exact h.writeStops hf hstops
  · exact ht ▸ hk _ (h.write hf hw)

theorem InProgress.awaitReply (h : InProgress t) (n : Nat) (fields : Bytes → Result Value) :
    LeftByOperation (t.awaitReply n fields) := by
  obtain ⟨-, ht⟩ | ⟨-, ht⟩ | ⟨-, ht⟩ := State.awaitReply_cases t n fields
  · exact ht ▸ (h.read n).finish _
  · exact ht ▸ (h.read n).finish _
  · exact ht ▸ (h.read n).blocked

/-- Every instruction that answers a next state leaves TX and the result as the invariant asks. -/
theorem exec_leftByOperation {i : Instr} (hs : s.Inv) (h : exec i s = .next t) : LeftByOperation t := by
  cases exec_shape s i with
  | codec r _ _ hx =>
    obtain ⟨hb, rfl⟩ := answer_next _ _ _ (hx ▸ h)
    exact (hs.start hb).finish r
  | emission request _ _ hr hx =>
    obtain ⟨hb, rfl⟩ := issue_next _ _ _ (hx ▸ h)
    have hp := hs.start hb
    exact hp.require fun f hf => hp.send (hr.isRequestFrame f hf) fun u hu => hu.finish _
  | reading request fields _ _ hr hx =>
    obtain ⟨hb, rfl⟩ := issue_next _ _ _ (hx ▸ h)
    have hp := hs.start hb
    exact hp.require fun f hf => hp.send (hr.isRequestFrame f hf) fun u hu => hu.awaitReply _ fields
  | clearing id fields _ hr hx =>
    obtain ⟨hb, rfl⟩ := issue_next _ _ _ (hx ▸ h)
    have hp := hs.start hb
    exact hp.require fun f hf => hp.send (hr.isRequestFrame f hf) fun u hu =>
      hu.require fun g hg => hu.send (isRequestFrame_of_statusRequest id g hg) fun v hv => hv.awaitReply _ fields

/-- Taking the next entry keeps the invariant: the index had an entry, so one more is still within the script. -/
theorem LeftByOperation.advance_inv (h : LeftByOperation t) (hopi : t.opi < t.script.length) : t.advance.Inv := by
  cases hb : t.busy with
  | true =>
    rw [State.advance_of_busy t hb]
    exact ⟨h.sent, h.whole, h.noResult, fun _ => hopi, hopi.le⟩
  | false =>
    rw [State.advance_of_idle t hb]
    exact ⟨h.sent, h.whole, h.noResult, fun hbusy => by simp [hb] at hbusy, hopi⟩

end

/-- Settles O50: the instruction leaves TX and the result sound, script and index alone, and its entry was in the script. -/
theorem everyStepKeepsTheInvariant : Obligations.EveryStepKeepsTheInvariant := by
  intro s t hs h
  obtain ⟨e, i, u, he, -, hx, rfl⟩ := step_next h
  have hev := exec_evolves hx
  have hentry : s.opi < s.script.length := (List.getElem?_eq_some_iff.1 he).1
  exact (exec_leftByOperation hs hx).advance_inv (by rwa [hev.opi, hev.script])

end Sys2Proof.Machine
end

section
/-! PROOFS. Encoding, O47 and O48: the decoder reads back what the encoder writes, by the four tags of an entry
(30_encoding.md R50, R58, R70, R73). -/

namespace Sys2Proof

/-- A frame that carries its own checksums and size is read as the row of its command. -/
theorem decodeFrame_frameBytes (id cmd : Byte) {payload : Bytes} (h : payloadFits payload = true) :
    decodeFrame (frameBytes id cmd payload) = frameRow id cmd payload := by
  rw [decodeFrame, requestOf_frameBytes id cmd payload (of_decide_eq_true h)]

/-- A frame of a session operation is read as the row that its OPSEL, command and payload name. -/
theorem decodeEmit_frameBytes {p : Config.Params} {opsel id cmd : Byte} {payload : Bytes} {i : Instr}
    (hlen : payload.length ≤ 248) (hrow : fixedRow p opsel id cmd payload = some i) (hi : WellFormed i = true) :
    decodeEmit p opsel (frameBytes id cmd payload) = .ok i := by
  simp only [decodeEmit, requestOf_frameBytes id cmd payload hlen, hrow, hi, if_true]

theorem oneByteWrite_ramWrite (register value : Byte) : oneByteWrite register 0x03 [register, 0x01, value] = some value :=
  if_pos ⟨rfl, rfl, rfl⟩

theorem isStatusClear_ramWrite (register : Byte) : isStatusClear register 0x03 [register, 0x02, 0x00, 0x00] = true :=
  decide_eq_true ⟨rfl, rfl, rfl, rfl, rfl⟩

/-- The wire code that the encoder writes for a torque index stands for the mode of that index. -/
theorem fixedRow_setTorque (p : Config.Params) (id : Byte) {mode : Byte} (h : (TorqueMode.ofIndex? mode).isSome = true) :
    fixedRow p 0x13 id 0x03 [p.regTorque, 0x01, ((TorqueMode.ofIndex? mode).map TorqueMode.code).getD 0] =
      some (.ramWriteSetTorque id mode) := by
  have hmode : (TorqueMode.ofCode? (((TorqueMode.ofIndex? mode).map TorqueMode.code).getD 0)).map TorqueMode.index =
      some mode := by
    revert mode
    decide
  obtain ⟨t, ht, hindex⟩ := Option.map_eq_some_iff.1 hmode
  change ((oneByteWrite p.regTorque 0x03 _).bind TorqueMode.ofCode?).map _ = _
  rw [oneByteWrite_ramWrite, Option.bind_some, ht, Option.map_some, hindex]

theorem length_flatMap_jogBytes (es : List JogEntry) : (es.flatMap JogEntry.bytes).length = 4 * es.length := by
  induction es with
  | nil => rfl
  | cons e es ih =>
    rw [List.flatMap_cons, List.length_append, ih, List.length_cons, JogEntry.bytes]
    simp only [List.length_cons, List.length_nil]
    omega

theorem fixedRow_runMotion (p : Config.Params) (id : Byte) (payload : Bytes) :
    fixedRow p 0x18 id 0x06 payload = jogRow id payload :=
  rfl

/-- The S_JOG frame of entries in range is read back, its address from the first entry (R58, R98). -/
theorem decodeEmit_sJogRunMotion (p : Config.Params) (time : Byte) {es : List JogEntry} (h : jogEntriesOk es = true) :
    decodeEmit p 0x18 (frameBytes (jogAddress es) 0x06 (time :: es.flatMap JogEntry.bytes)) =
      .ok (.sJogRunMotion time es) := by
  have ⟨hlen, hall⟩ := Bool.and_eq_true_iff.1 h
  have ⟨hone, hmax⟩ := of_decide_eq_true hlen
  have hread := jogRecords_flatMap_bytes es (List.all_eq_true.1 hall)
  refine decodeEmit_frameBytes ?_ ?_ h
  · rw [List.length_cons, length_flatMap_jogBytes]
    omega
  · rw [fixedRow_runMotion]
    cases es with
    | nil => simp at hone
    | cons e es => simp only [jogRow, hread, jogAddress, if_true]

/-- A count and motion entries are read back as an operation's operands. -/
theorem takeMotion_countBytes (k : Nat → List MotionCommand → Instr) (es : List MotionCommand) {count : Nat}
    (h : countFits count = true) :
    (takeByte (countBytes count ++ es.flatMap MotionCommand.record) fun hi b => takeByte b fun lo b =>
      takeMotion b (k (countOf hi lo))) = .ok (k count es) := by
  change takeMotion (es.flatMap MotionCommand.record) _ = _
  rw [takeMotion, motionRecords_flatMap_record, countOf_countBytes count (of_decide_eq_true h)]

/-- Settles O48, row by row: a request frame is taken apart by `requestOf`, a record operand by operand. -/
theorem decodeInvertsEncode : Obligations.DecodeInvertsEncode := by
  intro p i h
  cases i with
  | eepWrite id b | eepRead id b | ramWrite id b | ramRead id b | iJog id b | sJog id b | stat id b | rollback id b
  | reboot id b => exact decodeFrame_frameBytes id _ h
  | ramWriteSetLed id c =>
    exact decodeEmit_frameBytes (by simp) (congrArg (Option.map _) (oneByteWrite_ramWrite Config.regLed c)) h
  | ramWriteSetAcknowledgePolicy id v =>
    exact decodeEmit_frameBytes (by simp) (congrArg (Option.map _) (oneByteWrite_ramWrite _ v)) h
  | ramWriteSetControlMode id m =>
    exact decodeEmit_frameBytes (by simp) (congrArg (Option.map _) (oneByteWrite_ramWrite _ m)) h
  | ramWriteSetTorque id m =>
    exact decodeEmit_frameBytes (by simp) (fixedRow_setTorque p id (Bool.and_eq_true_iff.1 h).2) h
  | ramReadGetAbsoluteAngle id | ramReadGetCalibratedAngle id | statGetStatus id =>
    exact decodeEmit_frameBytes (by simp) rfl h
  | ramWriteClearStatus id =>
    exact decodeEmit_frameBytes (by simp) (congrArg (rowIf · _) (isStatusClear_ramWrite _)) h
  | sJogRunMotion time es => exact decodeEmit_sJogRunMotion p time h
  | marshalSjog es n => exact takeMotion_countBytes (fun n es => .marshalSjog es n) es h
  | runMotion es n => exact takeMotion_countBytes (fun n es => .runMotion es n) es h
  | decodeResponse b epl verify => cases verify <;> rfl
  | _ => rfl

/-- Settles O47: each word is the encoding of its well-formed instruction. -/
theorem specWordsDecode : Obligations.SpecWordsDecode := fun p =>
  ⟨decodeInvertsEncode p (.setLed 1 4) rfl, decodeInvertsEncode p (.marshalRamRead 60 2) rfl,
    decodeInvertsEncode p (.csum 9 1 4 [60, 2]) rfl, decodeInvertsEncode p (.statusFlags 0x12 0x44) rfl,
    decodeInvertsEncode p (.stat 1 []) rfl, decodeInvertsEncode p (.ramRead 1 [60, 2]) rfl,
    decodeInvertsEncode p (.ramReadGetAbsoluteAngle 1) rfl, decodeInvertsEncode p (.ramWriteSetLed 1 4) rfl,
    decodeInvertsEncode p (.sJogRunMotion 60 [⟨500, 4, 0, 1⟩]) rfl,
    decodeInvertsEncode p (.statResponse 1 0x47 0x4E 0xB0 1 0) rfl,
    decodeInvertsEncode p (.ramReadResponse2 1 0x44 0xDC 0x22 0x3C 0x02 0xE8 0x03 0x00 0x40) rfl,
    decodeInvertsEncode p (.ramReadResponse2 1 0x44 0x30 0xCE 0x3A 0x02 0xFF 0xFF 0x00 0x40) rfl⟩

end Sys2Proof
end

section
/-! PROOFS. Encoding, O46 and O49: the decoder accepts nothing but encodings (30_encoding.md R50, R53, R70). -/

namespace Sys2Proof

/-! ## Operation records -/

/-- With the bytes `read` of the record behind it and `b` before it, the decoder accepts only well-formed instructions whose
encoding is the whole record. -/
def ReadsRecord (p : Config.Params) (read b : Bytes) (d : Decoded) : Prop :=
  ∀ i, d = .ok i → WellFormed i = true ∧ encode p i = .op (read ++ b)

section
variable {p : Config.Params} {read b : Bytes} {i : Instr}

theorem ReadsRecord.error (e : DecodeError) : ReadsRecord p read b (.error e) := by
  intro i h
  cases h

theorem ReadsRecord.ok (hi : WellFormed i = true) (he : encode p i = .op (read ++ b)) : ReadsRecord p read b (.ok i) := by
  intro j h
  cases h
  exact ⟨hi, he⟩

theorem ReadsRecord.takeByte {k : Byte → Bytes → Decoded} (h : ∀ x rest, ReadsRecord p (read ++ [x]) rest (k x rest)) :
    ReadsRecord p read b (takeByte b k) := by
  cases b with
  | nil => exact .error _
  | cons x rest =>
    intro i hi
    rw [List.append_cons]
    exact h x rest i hi

theorem ReadsRecord.noMore (hi : WellFormed i = true) (he : encode p i = .op read) : ReadsRecord p read b (noMore b i) := by
  cases b with
  | nil => exact .ok hi (by rw [he, List.append_nil])
  | cons x rest => exact .error _

/-- Motion records stand for nothing but the entries read from them. -/
theorem flatMap_record_of_motionRecords {es : List MotionCommand} (h : motionRecords b = some es) :
    es.flatMap MotionCommand.record = b := by
  fun_induction motionRecords b generalizing es with
  | case1 => cases h; rfl
  | case2 id high low time led mode rest ih =>
    obtain ⟨es', hes', rfl⟩ := Option.map_eq_some_iff.1 h
    rw [List.flatMap_cons, ih hes', MotionCommand.record, highByte_wordOf, lowByte_wordOf]
    rfl
  | case3 => cases h

theorem ReadsRecord.takeMotion {k : List MotionCommand → Instr} (hi : ∀ es, WellFormed (k es) = true)
    (he : ∀ es, encode p (k es) = .op (read ++ es.flatMap MotionCommand.record)) :
    ReadsRecord p read b (takeMotion b k) := by
  unfold Sys2Proof.takeMotion
  split
  next es h => exact .ok (hi es) (by rw [he, flatMap_record_of_motionRecords h])
  · exact .error _

theorem countFits_countOf (high low : Byte) : countFits (countOf high low) = true := decide_eq_true (wordOf high low).isLt

theorem countBytes_countOf (high low : Byte) : countBytes (countOf high low) = [high, low] := by
  rw [countBytes, countOf, BitVec.ofNat_toNat, BitVec.setWidth_eq, highByte_wordOf, lowByte_wordOf]

/-- A count and motion entries after an OPSEL. -/
theorem ReadsRecord.takeCountedMotion {opsel : Byte} {k : Nat → List MotionCommand → Instr}
    (hi : ∀ n es, WellFormed (k n es) = countFits n)
    (he : ∀ n es, encode p (k n es) = .op (opsel :: (countBytes n ++ es.flatMap MotionCommand.record))) :
    ReadsRecord p [opsel] b
      (Sys2Proof.takeByte b fun hi b => Sys2Proof.takeByte b fun lo b => Sys2Proof.takeMotion b (k (countOf hi lo))) :=
  .takeByte fun _ _ => .takeByte fun _ _ => .takeMotion (fun es => (hi _ es).trans (countFits_countOf _ _))
    fun es => by rw [he, countBytes_countOf]; rfl

/-- The verify byte of a `decode_response` record is 0 or 1 (D6). -/
theorem ReadsRecord.verifyBit {epl v : Byte} {bad : DecodeError} : ReadsRecord p [0x09, epl, v] b
      (if v = 0 then .ok (.decodeResponse b epl false) else if v = 1 then .ok (.decodeResponse b epl true)
        else .error bad) := by
  split_ifs with h0 h1
  · exact .ok rfl (h0 ▸ rfl)
  · exact .ok rfl (h1 ▸ rfl)
  · exact .error _

end

/-- R70's table: every OPSEL value in it reads its own record, operand by operand. -/
theorem decodeOperands_readsRecord (p : Config.Params) (b : Bytes) :
    ∀ opsel ∈ ([0x00, 0x01, 0x02, 0x03, 0x04, 0x08, 0x09, 0x0A, 0x0B, 0x0C, 0x0D, 0x0E, 0x10, 0x11, 0x12, 0x13, 0x14, 0x15,
      0x16, 0x17, 0x18] : Bytes), ReadsRecord p [opsel] b (decodeOperands opsel b) := by
  simp only [List.forall_mem_cons]
  exact
    ⟨.takeByte fun _ _ => .takeByte fun _ _ => .takeByte fun _ _ => .ok rfl rfl,
      .takeByte fun _ _ => .takeByte fun _ _ => .ok rfl rfl,
      .takeByte fun _ _ => .ok rfl rfl,
      .takeByte fun _ _ => .takeByte fun _ _ => .noMore rfl rfl,
      .takeCountedMotion (k := fun n es => .marshalSjog es n) (fun _ _ => rfl) (fun _ _ => rfl),
      .ok rfl rfl,
      .takeByte fun _ _ => .takeByte fun _ _ => .verifyBit,
      .ok rfl rfl, .ok rfl rfl, .ok rfl rfl, .ok rfl rfl,
      .takeByte fun _ _ => .takeByte fun _ _ => .noMore rfl rfl,
      .takeByte fun _ _ => .takeByte fun _ _ => .noMore rfl rfl,
      .takeByte fun _ _ => .takeByte fun _ _ => .noMore rfl rfl,
      .takeByte fun _ _ => .takeByte fun _ _ => .noMore rfl rfl,
      .takeByte fun _ _ => .takeByte fun _ _ => .noMore rfl rfl,
      .takeByte fun _ _ => .noMore rfl rfl,
      .takeByte fun _ _ => .noMore rfl rfl,
      .takeByte fun _ _ => .noMore rfl rfl,
      .takeByte fun _ _ => .noMore rfl rfl,
      .takeCountedMotion (k := fun n es => .runMotion es n) (fun _ _ => rfl) (fun _ _ => rfl), List.forall_mem_nil _⟩

/-- An OPSEL value outside R70's table selects nothing. -/
theorem decodeOperands_of_unknown {opsel : Byte} (b : Bytes) (h : opsel.toNat ∈ [5, 6, 7, 15] ∨ 24 < opsel.toNat) :
    decodeOperands opsel b = .error .unknownOpsel := by
  simp only [List.mem_cons, List.not_mem_nil, or_false] at h
  unfold decodeOperands
  split
  case h_22 => rfl
  all_goals omega

theorem opsel_cases (opsel : Byte) :
    opsel ∈ ([0x00, 0x01, 0x02, 0x03, 0x04, 0x08, 0x09, 0x0A, 0x0B, 0x0C, 0x0D, 0x0E, 0x10, 0x11, 0x12, 0x13, 0x14, 0x15,
      0x16, 0x17, 0x18] : Bytes) ∨ opsel.toNat ∈ [5, 6, 7, 15] ∨ 24 < opsel.toNat := by
  revert opsel
  decide

/-- An operation record is accepted only as the instruction it is the encoding of. -/
theorem decodeOp_readsRecord (p : Config.Params) (b : Bytes) : ReadsRecord p [] b (decodeOp b) := by
  cases b with
  | nil => exact .error _
  | cons opsel b =>
    obtain hknown | hunknown := opsel_cases opsel
    · exact decodeOperands_readsRecord p b opsel hknown
    · rw [decodeOp, decodeOperands_of_unknown b hunknown]
      exact .error _

/-! ## Frames of the nine wire commands -/

theorem encode_of_frameRow (p : Config.Params) {id cmd : Byte} {payload : Bytes} {i : Instr} (hlen : payload.length ≤ 248)
    (h : frameRow id cmd payload = .ok i) : WellFormed i = true ∧ encode p i = .frame (frameBytes id cmd payload) := by
  unfold frameRow at h
  split at h
  case h_10 => cases h
  all_goals
    next hcmd =>
      cases h
      exact ⟨decide_eq_true hlen, by rw [(BitVec.toNat_eq_nat.1 hcmd).2]; rfl⟩

/-- A request frame is accepted only as the row it is the encoding of. -/
theorem encode_of_decodeFrame (p : Config.Params) {b : Bytes} {i : Instr} (h : decodeFrame b = .ok i) :
    WellFormed i = true ∧ encode p i = .frame b := by
  unfold decodeFrame at h
  split at h
  · cases h
  next hreq =>
    obtain ⟨hlen, rfl⟩ := requestOf_ok _ _ _ _ hreq
    exact encode_of_frameRow p hlen h

/-! ## Frames of the session operations -/

/-- The row read from a session operation's frame is encoded as that frame, under that OPSEL. -/
def ReadsEmission (p : Config.Params) (opsel id cmd : Byte) (payload : Bytes) (row : Option Instr) : Prop :=
  ∀ i, row = some i → encode p i = .emit opsel (frameBytes id cmd payload)

section
variable {p : Config.Params} {opsel id cmd register value : Byte} {payload : Bytes}

theorem oneByteWrite_eq_some (h : oneByteWrite register cmd payload = some value) :
    cmd = 0x03 ∧ payload = [register, 0x01, value] := by
  unfold oneByteWrite at h
  split at h
  · obtain ⟨⟨hcmd, rfl, rfl⟩, hv⟩ := Option.ite_none_right_eq_some.1 h
    cases hv
    exact ⟨hcmd, rfl⟩
  · cases h

theorem eq_of_isPositionRead (h : isPositionRead register cmd payload = true) :
    cmd = 0x04 ∧ payload = [register, 0x02] := by
  unfold isPositionRead at h
  split at h
  · obtain ⟨hcmd, rfl, rfl⟩ := of_decide_eq_true h
    exact ⟨hcmd, rfl⟩
  · cases h

theorem eq_of_isStatusClear (h : isStatusClear register cmd payload = true) :
    cmd = 0x03 ∧ payload = [register, 0x02, 0x00, 0x00] := by
  unfold isStatusClear at h
  split at h
  · obtain ⟨hcmd, rfl, rfl, rfl, rfl⟩ := of_decide_eq_true h
    exact ⟨hcmd, rfl⟩
  · cases h

theorem ReadsEmission.oneByteWrite {k : Byte → Instr}
    (he : ∀ v, encode p (k v) = .emit opsel (frameBytes id 0x03 [register, 0x01, v])) :
    ReadsEmission p opsel id cmd payload ((oneByteWrite register cmd payload).map k) := by
  intro i h
  obtain ⟨v, hv, rfl⟩ := Option.map_eq_some_iff.1 h
  obtain ⟨rfl, rfl⟩ := oneByteWrite_eq_some hv
  exact he v

theorem ReadsEmission.rowIf {condition : Bool} {i : Instr}
    (he : condition = true → encode p i = .emit opsel (frameBytes id cmd payload)) :
    ReadsEmission p opsel id cmd payload (rowIf condition i) := by
  intro j h
  obtain ⟨hc, hj⟩ := Option.ite_none_right_eq_some.1 h
  cases hj
  exact he hc

/-- A torque mode's index stands for the wire code it was read from. -/
theorem code_of_ofCode {t : TorqueMode} (h : TorqueMode.ofCode? value = some t) :
    ((TorqueMode.ofIndex? t.index).map TorqueMode.code).getD 0 = value := by
  revert value t
  decide

theorem ReadsEmission.setTorque : ReadsEmission p 0x13 id cmd payload
    (((Sys2Proof.oneByteWrite p.regTorque cmd payload).bind TorqueMode.ofCode?).map fun t =>
      .ramWriteSetTorque id t.index) := by
  intro i h
  obtain ⟨t, ht, rfl⟩ := Option.map_eq_some_iff.1 h
  obtain ⟨v, hv, hcode⟩ := Option.bind_eq_some_iff.1 ht
  obtain ⟨rfl, rfl⟩ := oneByteWrite_eq_some hv
  rw [encode, code_of_ofCode hcode]

/-- S_JOG records stand for nothing but the entries read from them. -/
theorem flatMap_bytes_of_jogRecords {b : Bytes} {es : List JogEntry} (h : jogRecords b = some es) :
    es.flatMap JogEntry.bytes = b := by
  fun_induction jogRecords b generalizing es with
  | case1 => cases h; rfl
  | case2 high low set id rest hset ih =>
    obtain ⟨es', hes', rfl⟩ := Option.map_eq_some_iff.1 h
    rw [List.flatMap_cons, ih hes', JogEntry.bytes, highByte_wordOf, lowByte_wordOf, hset]
    rfl
  | case3 => cases h
  | case4 => cases h

theorem ReadsEmission.jogRow : ReadsEmission p 0x18 id 0x06 payload (jogRow id payload) := by
  intro i h
  unfold Sys2Proof.jogRow at h
  split at h
  next time rest =>
    split at h
    next e es hes =>
      obtain ⟨rfl, hi⟩ := Option.ite_none_right_eq_some.1 h
      cases hi
      rw [← flatMap_bytes_of_jogRecords hes]
      rfl
    · cases h
  · cases h

/-- Every FRAME_FIXED row reads its own frame (R73). -/
theorem fixedRow_readsEmission : ReadsEmission p opsel id cmd payload (fixedRow p opsel id cmd payload) := by
  unfold fixedRow
  split
  case h_10 => exact fun i h => nomatch h
  all_goals
    rename_i hop
    obtain rfl := (BitVec.toNat_eq_nat.1 hop).2
  · exact .oneByteWrite fun _ => rfl
  · exact .oneByteWrite fun _ => rfl
  · exact .oneByteWrite fun _ => rfl
  · exact .setTorque
  · refine .rowIf fun h => ?_
    obtain ⟨rfl, rfl⟩ := eq_of_isPositionRead h
    rfl
  · refine .rowIf fun h => ?_
    obtain ⟨rfl, rfl⟩ := eq_of_isPositionRead h
    rfl
  · refine .rowIf fun h => ?_
    obtain ⟨rfl, rfl⟩ := of_decide_eq_true h
    rfl
  · refine .rowIf fun h => ?_
    obtain ⟨rfl, rfl⟩ := eq_of_isStatusClear h
    rfl
  · intro i h
    obtain ⟨rfl, hrow⟩ := Option.ite_none_right_eq_some.1 h
    exact ReadsEmission.jogRow i hrow

end

/-- A session operation's frame is accepted only as the row it is the encoding of, with operands in range. -/
theorem encode_of_decodeEmit {p : Config.Params} {opsel : Byte} {b : Bytes} {i : Instr} (h : decodeEmit p opsel b = .ok i) :
    WellFormed i = true ∧ encode p i = .emit opsel b := by
  unfold decodeEmit at h
  split at h
  · cases h
  next id cmd payload hreq =>
    obtain ⟨-, rfl⟩ := requestOf_ok _ _ _ _ hreq
    split at h
    next hrow =>
      split at h
      next hwf =>
        cases h
        exact ⟨hwf, fixedRow_readsEmission _ hrow⟩
      · cases h
    · cases h

/-! ## Responses -/

/-- A response is accepted only as the row it is the encoding of (R56, R57). -/
theorem encode_of_decodeResp (p : Config.Params) {b : Bytes} {i : Instr} (h : decodeResp b = .ok i) :
    WellFormed i = true ∧ encode p i = .resp b := by
  unfold decodeResp at h
  split at h
  case h_3 => cases h
  all_goals
    split_ifs at h with hheader hsize
    obtain ⟨rfl, rfl⟩ := hheader
    obtain rfl := (BitVec.toNat_eq_nat.1 hsize).2
    cases h
    exact ⟨rfl, rfl⟩

/-- Settles O49, by the four tags of an entry. -/
theorem encodeInvertsDecode : Obligations.EncodeInvertsDecode := by
  intro p e i h
  cases e with
  | op b => exact decodeOp_readsRecord p b i h
  | frame b => exact encode_of_decodeFrame p h
  | emit opsel b => exact encode_of_decodeEmit h
  | resp b => exact encode_of_decodeResp p h


end Sys2Proof

namespace Sys2Proof.Machine

theorem step_of_undecodable {s : State} {e : Entry} {why : DecodeError} (he : s.nextEntry = some e)
    (hd : decode s.params e = .error why) : step s = .refused (.undecodable why) := by
  simp only [step, he, hd]

/-- Settles O46: the decoder refuses the record at its first byte. -/
theorem unknownOpselIsRefused : Obligations.UnknownOpselIsRefused :=
  fun _ _ b he h => step_of_undecodable he (decodeOperands_of_unknown b h)

end Sys2Proof.Machine
end

section
/-! PROOFS. Encoding, O6 and O11: the frames of the nine wire commands (30_encoding.md R52, 41_framer.md R90) and the SET
byte of an S_JOG entry (R59). -/

namespace Sys2Proof

/-- `encode_request` refuses a payload that does not fit, once the command is legal (D25). -/
theorem encodeRequest_of_too_long (id : Byte) {cmd : Byte} {p : Bytes} (h1 : 1 ≤ cmd.toNat) (h9 : cmd.toNat ≤ 9)
    (hp : 248 < p.length) : encodeRequest id cmd p = .error .payloadTooLarge := by
  have hmin : Config.cmdMin.toNat = 1 := rfl
  have hmax : Config.cmdMax.toNat = 9 := rfl
  have hlong : Config.maxPayload < p.length := hp
  rw [encodeRequest, if_neg (by omega), if_pos hlong]

theorem Command.code_legal (c : Command) : 1 ≤ c.code.toNat ∧ c.code.toNat ≤ 9 := by
  cases c <;> decide

theorem Command.encodeRequest_code (c : Command) (id : Byte) (p : Bytes) :
    encodeRequest id c.code p = if p.length ≤ 248 then .ok (wireFrame id c.code p) else .error .payloadTooLarge := by
  obtain ⟨h1, h9⟩ := c.code_legal
  split_ifs with hp
  · exact encodeRequest_of_legal id c.code p h1 h9 hp
  · exact encodeRequest_of_too_long id h1 h9 (not_le.1 hp)

/-- Settles O11: an entry in range has one of three colours and one of two modes. -/
theorem setByteCarriesModeAndColour : Obligations.SetByteCarriesModeAndColour := by
  rintro e ⟨-, -, hled, hmode⟩
  refine ⟨setByte e.mode e.led, rfl, ?_⟩
  have hhigh (b : Byte) (hb : b.toNat < 2 ^ 5) (k : Nat) (hk : 5 ≤ k) : b.getLsbD k = false :=
    Nat.testBit_lt_two_pow (hb.trans_le (Nat.pow_le_pow_right (by decide) hk))
  rcases hled with h | h | h <;> rcases hmode with h' | h' <;> rw [h, h'] <;>
    exact ⟨rfl, rfl, rfl, by decide, by decide, by decide, by decide, hhigh _ (by decide), by decide⟩

end Sys2Proof

namespace Sys2Proof.Machine

theorem answer_ok_of_idle {s : State} (v : Value) (h : s.busy = false) :
    answer s (.ok v) = .next { s with ret := some (.ok v) } := by
  rw [answer_of_idle s _ h, isGhostFault_ok, Bool.or_false]

theorem frameCommand_of_idle {s : State} (c : Command) (id : Byte) (p : Bytes) (h : s.busy = false) :
    frameCommand c id p s = .next { s with
      ret := some (if p.length ≤ 248 then .ok (.packet (wireFrame id c.code p)) else .error .payloadTooLarge) } := by
  rw [frameCommand, c.encodeRequest_code]
  split_ifs
  · exact answer_ok_of_idle _ h
  · rw [Except.map, answer_of_idle s _ h, isGhostFault_error, Err.isGhostFault, Bool.or_false]

/-- Settles O6: the nine rows are the nine commands' frames. -/
theorem nineWireCommandsAreFramedWithTheirCodes : Obligations.NineWireCommandsAreFramedWithTheirCodes :=
  fun _ id p h =>
    ⟨frameCommand_of_idle .eepWrite id p h, frameCommand_of_idle .eepRead id p h, frameCommand_of_idle .ramWrite id p h,
      frameCommand_of_idle .ramRead id p h, frameCommand_of_idle .iJog id p h, frameCommand_of_idle .sJog id p h,
      frameCommand_of_idle .stat id p h, frameCommand_of_idle .rollback id p h, frameCommand_of_idle .reboot id p h⟩

end Sys2Proof.Machine
end

section
/-! PROOFS. Encoding, O20: the two response layouts (30_encoding.md R56, R57) and the decoder's work on them
(42_decoder.md R110, R114 to R116). -/

namespace Sys2Proof

/-- `decode_response` of a framed sequence of the expected length fails only on its checksums, where they are verified
(R110). -/
theorem decodeResponse_of_form {size id cmd c1 c2 epl : Byte} {p : Bytes} (verify : Bool) (hsize : size.toNat = 7 + p.length)
    (hepl : p.length = epl.toNat) :
    let b := [0xFF, 0xFF, size, id, cmd, c1, c2] ++ p
    ((verify = true → ChecksumsRight b) → decodeResponse b epl verify = .ok ⟨size, id, cmd, c1, c2, p⟩) ∧
    (¬(verify = true → ChecksumsRight b) → decodeResponse b epl verify = .error .corrupt) := by
  intro b
  have hb : Framed b := framed_of_size size id cmd c1 c2 p hsize
  have hlen : b.length = Config.overhead + epl.toNat := by
    rw [← hepl, List.length_append]
    rfl
  have hcheck : (verify && !checksumsMatch b) = true ↔ ¬(verify = true → ChecksumsRight b) := by
    rw [← checksumsMatch_iff b hb, Bool.and_eq_true, Bool.not_eq_true', Classical.not_imp, Bool.not_eq_true]
  simp only [decodeResponse, (wellFramed_iff b).2 hb, hlen, Bool.not_true, Bool.false_eq_true, ne_eq, not_true_eq_false,
    if_false]
  exact ⟨fun h => if_neg (mt hcheck.1 (not_not.2 h)), fun h => if_pos (hcheck.2 h)⟩

theorem toNat_rawOf (low high : Byte) : (rawOf low high).toNat = low.toNat + 256 * high.toNat := by
  have hlow := low.isLt
  have hhigh := high.isLt
  have hshift : high.toNat <<< 8 < 2 ^ 16 := by omega
  rw [rawOf, BitVec.toNat_or, BitVec.toNat_shiftLeft, BitVec.toNat_setWidth_of_le (by decide),
    BitVec.toNat_setWidth_of_le (by decide), Nat.mod_eq_of_lt hshift, Nat.or_comm, ← Nat.shiftLeft_add_eq_or_of_lt hlow]
  omega

theorem toNat_millidegreesOf (raw : U16) : (millidegreesOf raw).toNat = 325 * raw.toNat := by
  have hraw := raw.isLt
  have hscale : Config.angleScale.toNat = 325 := rfl
  rw [millidegreesOf, BitVec.toNat_mul, BitVec.toNat_setWidth, hscale]
  omega

theorem toNat_calibratedOf (raw : U16) : (calibratedOf raw).toNat = raw.toNat % 1024 := by
  have hmask : Config.calMask.toNat = 2 ^ 10 - 1 := rfl
  rw [calibratedOf, BitVec.toNat_setWidth, BitVec.toNat_and, hmask, Nat.and_two_pow_sub_one_eq_mod, Nat.mod_mod]

end Sys2Proof

namespace Sys2Proof.Machine

theorem answer_corrupt_of_idle {s : State} (h : s.busy = false) :
    answer s (.error .corrupt) = .next { s with ret := some (.error .corrupt), ghostFault := true } := by
  rw [answer_of_idle s _ h, isGhostFault_error, Err.isGhostFault, Bool.or_true]

section
variable {s : State} (id cmd c1 c2 b7 b8 lo hi se sd : Byte)

/-- The STAT layout is framed and of its expected length, so only its checksums decide (R56). -/
theorem exec_statResponse (hb : s.busy = false) :
    (s.Accepts [0xFF, 0xFF, 9, id, cmd, c1, c2, se, sd] → exec (.statResponse id cmd c1 c2 se sd) s =
      .next { s with ret := some (.ok (.statResponse ⟨9, id, cmd, c1, c2, [se, sd]⟩ ⟨se, sd⟩)) }) ∧
    (¬s.Accepts [0xFF, 0xFF, 9, id, cmd, c1, c2, se, sd] → exec (.statResponse id cmd c1 c2 se sd) s =
      .next { s with ret := some (.error .corrupt), ghostFault := true }) := by
  obtain ⟨hok, hcorrupt⟩ := decodeResponse_of_form (size := 9) (id := id) (cmd := cmd) (c1 := c1) (c2 := c2) (epl := 2)
    (p := [se, sd]) s.params.verifyDefault rfl rfl
  have hstatus : decodeStatus (statResponseBytes id cmd c1 c2 se sd) = .ok ⟨se, sd⟩ := rfl
  constructor
  · intro h
    have hdecode : decodeResponse (statResponseBytes id cmd c1 c2 se sd) 2 s.params.verifyDefault = _ := hok h
    simp only [exec, execStatResponse, hdecode, hstatus]
    exact answer_ok_of_idle _ hb
  · intro h
    have hdecode : decodeResponse (statResponseBytes id cmd c1 c2 se sd) 2 s.params.verifyDefault = _ := hcorrupt h
    simp only [exec, execStatResponse, hdecode]
    exact answer_corrupt_of_idle hb

/-- The layout of a position response is framed and of its expected length, so only its checksums decide (R57). -/
theorem exec_ramReadResponse2 (hb : s.busy = false) :
    (s.Accepts [0xFF, 0xFF, 13, id, cmd, c1, c2, b7, b8, lo, hi, se, sd] →
      exec (.ramReadResponse2 id cmd c1 c2 b7 b8 lo hi se sd) s =
        .next { s with
          ret := some (.ok (.ramReadResponse ⟨13, id, cmd, c1, c2, [b7, b8, lo, hi, se, sd]⟩ (rawOf lo hi)
            (millidegreesOf (rawOf lo hi)) (calibratedOf (rawOf lo hi)) ⟨se, sd⟩)) }) ∧
    (¬s.Accepts [0xFF, 0xFF, 13, id, cmd, c1, c2, b7, b8, lo, hi, se, sd] →
      exec (.ramReadResponse2 id cmd c1 c2 b7 b8 lo hi se sd) s =
        .next { s with ret := some (.error .corrupt), ghostFault := true }) := by
  obtain ⟨hok, hcorrupt⟩ := decodeResponse_of_form (size := 13) (id := id) (cmd := cmd) (c1 := c1) (c2 := c2) (epl := 6)
    (p := [b7, b8, lo, hi, se, sd]) s.params.verifyDefault rfl rfl
  have habs : decodeAbsAngle (ramReadResponseBytes id cmd c1 c2 b7 b8 lo hi se sd) =
      .ok (rawOf lo hi, millidegreesOf (rawOf lo hi)) := rfl
  have hcal : decodeCalAngle (ramReadResponseBytes id cmd c1 c2 b7 b8 lo hi se sd) = .ok (calibratedOf (rawOf lo hi)) := rfl
  have hstatus : decodeStatus (ramReadResponseBytes id cmd c1 c2 b7 b8 lo hi se sd) = .ok ⟨se, sd⟩ := rfl
  constructor
  · intro h
    have hdecode : decodeResponse (ramReadResponseBytes id cmd c1 c2 b7 b8 lo hi se sd) 6
        s.params.verifyDefault = _ := hok h
    simp only [exec, execRamReadResponse2, hdecode, habs, hcal, hstatus]
    exact answer_ok_of_idle _ hb
  · intro h
    have hdecode : decodeResponse (ramReadResponseBytes id cmd c1 c2 b7 b8 lo hi se sd) 6
        s.params.verifyDefault = _ := hcorrupt h
    simp only [exec, execRamReadResponse2, hdecode]
    exact answer_corrupt_of_idle hb

end

/-- Settles O20, from the two layouts and the rules' arithmetic of the position (R114, R115). -/
theorem responseRowsAreDecoded : Obligations.ResponseRowsAreDecoded := by
  intro s id cmd c1 c2 b7 b8 lo hi se sd hb
  obtain ⟨hstat, hstatCorrupt⟩ := exec_statResponse id cmd c1 c2 se sd hb
  obtain ⟨hram, hramCorrupt⟩ := exec_ramReadResponse2 id cmd c1 c2 b7 b8 lo hi se sd hb
  exact ⟨hstat, hstatCorrupt, fun h => ⟨_, _, _, toNat_rawOf lo hi, toNat_millidegreesOf _, toNat_calibratedOf _, hram h⟩,
    hramCorrupt⟩

end Sys2Proof.Machine
end

section
/-! PROOFS. Encoding, O26: how an operation that writes one frame ends (43_session.md R130 phases 3 and 6), and the nine
FRAME_FIXED rows (30_encoding.md R73). -/

namespace Sys2Proof

section
variable {es : List MotionCommand} {n : Nat}

theorem exists_take_eq_cons (h0 : 0 < n) (hn : n ≤ es.length) : ∃ first others, es.take n = first :: others :=
  List.exists_cons_of_length_pos (by rw [List.length_take]; omega)

/-- R97 refuses no entry, more entries than there are, and an entry out of range. -/
theorem marshalSjog_of_refused (h : n = 0 ∨ es.length < n ∨ ∃ e ∈ es.take n, ¬e.InRange) :
    marshalSjog es n = .error .invalidArgument := by
  obtain rfl | h0 := Nat.eq_zero_or_pos n
  · exact marshalSjog_of_take_nil List.take_zero
  obtain hlt | hn := Nat.lt_or_ge es.length n
  · exact marshalSjog_of_length_lt hlt
  obtain ⟨first, others, ht⟩ := exists_take_eq_cons h0 hn
  obtain ⟨e, he, hout⟩ := (h.resolve_left h0.ne').resolve_left hn.not_gt
  rw [marshalSjog_of_cons hn ht, if_neg fun hr => hout (hr e (ht ▸ he))]

theorem motionRequest_of_refused (h : n = 0 ∨ es.length < n ∨ ∃ e ∈ es.take n, ¬e.InRange) :
    motionRequest es n = .error .invalidArgument :=
  motionRequest_of_marshalSjog_error (marshalSjog_of_refused h)

/-- R97 has no room for 62 entries, however many of them are in range. -/
theorem motionRequest_of_too_many (h62 : 62 ≤ n) (hn : n ≤ es.length) (hr : ∀ e ∈ es.take n, e.InRange) :
    motionRequest es n = .error .payloadTooLarge := by
  obtain ⟨first, others, ht⟩ := exists_take_eq_cons (by omega) hn
  rw [motionRequest_of_cons hn ht, if_pos (ht ▸ hr), if_neg (by omega)]

theorem motionFrame_isSome (h0 : 0 < n) (h61 : n ≤ 61) (hn : n ≤ es.length) (hr : ∀ e ∈ es.take n, e.InRange) :
    (motionFrame es n).isSome = true := by
  obtain ⟨first, others, ht⟩ := exists_take_eq_cons h0 hn
  rw [motionFrame_of_cons hn ht, if_pos (ht ▸ hr), if_pos h61]
  rfl

end

theorem take_map_withTime (time : Byte) (es : List JogEntry) :
    (es.map fun e => e.withTime time).take es.length = es.map fun e => e.withTime time :=
  List.take_of_length_le (List.length_map _).le

end Sys2Proof

namespace Sys2Proof.Machine

theorem exec_sJogRunMotion (time : Byte) (es : List JogEntry) (s : State) :
    exec (.sJogRunMotion time es) s = emit s (motionRequest (es.map fun e => e.withTime time) es.length) := rfl

section
variable {s : State} {i : Instr} {f : Bytes}

/-- A first write that does not succeed stops every writing instruction in the same way. -/
theorem writeStops_of_firstRequest (hb : s.busy = false) (hf : firstRequest s.params i = some f) : WriteStops s i f := by
  refine ⟨fun k hw => failedWriteSendsOnlyAPrefix s i f k hb hf hw, fun k hw => ?_⟩
  rw [exec_of_first_write_never hb hf (Transport.writeEnding_of_never _ k hw), Transport.afterWrite_of_never f hw]
  rfl

theorem emit_of_success (hb : s.busy = false) (hw : s.th.nextWrite = .success) :
    emit s (.ok f) = .next { s with th := s.th.wrote f, ret := some (.ok .unit) } := by
  have hreturns : s.start.th.writeEnding = .returns := Transport.writeEnding_of_success _ hw
  rw [emit, issue_of_idle _ _ hb, State.require_ok, State.send_of_returns _ _ _ hreturns,
    State.finish_withTh_start _ _ hb, State.start_th, Transport.afterWrite_of_success f hw, isGhostFault_ok, Bool.or_false]

/-- An instruction that writes one frame and awaits no response ends as phases 3 and 6 say. -/
theorem emissionEnds_of_firstRequest (hb : s.busy = false) (hreply : responseLen i = 0)
    (hf : firstRequest s.params i = some f) : EmissionEnds s i f := by
  refine ⟨fun hw => ?_, writeStops_of_firstRequest hb hf⟩
  cases exec_shape s i with
  | codec _ _ hnone _ => simp [hnone] at hf
  | emission request _ _ hr hx => rw [hx, (hr f).2 hf, emit_of_success hb hw]
  | reading _ _ _ hpos _ _ => omega
  | clearing id _ hi _ _ => simp [hi, responseLen] at hreply

/-- Operands refused before any transport call leave the result alone changed (R162). -/
theorem emit_of_error {e : Err} (hb : s.busy = false) (he : e.isGhostFault = false) :
    emit s (.error e) = .next { s with ret := some (.error e) } := by
  rw [emit, issue_of_idle _ _ hb, State.require_error]
  have hfinish := State.finish_withTh_start s.th (.error e) hb
  rw [isGhostFault_error, he, Bool.or_false] at hfinish
  exact congrArg _ hfinish

/-- An emission whose request is the rules' frame ends as the rules say, or refuses its operands. -/
theorem emissionEnds_or_refuses (hb : s.busy = false) (hreply : responseLen i = 0)
    (hx : exec i s = emit s (acceptedOr (firstRequest s.params i))) :
    (∀ f, firstRequest s.params i = some f → EmissionEnds s i f) ∧
      (firstRequest s.params i = none → RefusesArgument s i) := by
  refine ⟨fun f hf => emissionEnds_of_firstRequest hb hreply hf, fun hnone => ?_⟩
  rw [RefusesArgument, hx, hnone]
  exact emit_of_error hb rfl

end

/-- Settles O26: eight rows are emissions of the rules' frame; S_JOG.run_motion is the emission of its entries' request. -/
theorem fixedFrameRowsAreEmitted : Obligations.FixedFrameRowsAreEmitted := by
  intro s id x time es hb
  refine ⟨?_, fun f hf => emissionEnds_of_firstRequest hb rfl hf, fun h => ?_, fun hlen hr => ?_, fun hne hlen hr => ?_⟩
  · simp only [List.forall_mem_cons]
    exact
      ⟨emissionEnds_or_refuses hb rfl (congrArg (emit s) (ledRequest_eq id x)),
        emissionEnds_or_refuses hb rfl (congrArg (emit s) (policyRequest_eq s.params id x)),
        emissionEnds_or_refuses hb rfl (congrArg (emit s) (controlModeRequest_eq s.params id x)),
        emissionEnds_or_refuses hb rfl (congrArg (emit s) (torqueRequest_eq s.params id x)),
        emissionEnds_or_refuses hb rfl (congrArg (emit s) (absoluteAngleRequest_eq id)),
        emissionEnds_or_refuses hb rfl (congrArg (emit s) (calibratedAngleRequest_eq id)),
        emissionEnds_or_refuses hb rfl (congrArg (emit s) (statusRequest_eq id)),
        emissionEnds_or_refuses hb rfl (congrArg (emit s) (clearRequest_eq s.params id)), List.forall_mem_nil _⟩
  · rw [RefusesArgument, exec_sJogRunMotion, motionRequest_of_refused]
    · exact emit_of_error hb rfl
    · obtain rfl | ⟨e, he, hout⟩ := h
      · exact .inl rfl
      · exact .inr (.inr ⟨_, (take_map_withTime time es).symm ▸ List.mem_map_of_mem he, hout⟩)
  · rw [exec_sJogRunMotion, motionRequest_of_too_many hlen (List.length_map _).ge]
    · exact emit_of_error hb rfl
    · rwa [take_map_withTime, List.forall_mem_map]
  · refine motionFrame_isSome (List.length_pos_iff.2 hne) hlen (List.length_map _).ge ?_
    rwa [take_map_withTime, List.forall_mem_map]

end Sys2Proof.Machine
end

section
/-! PROOFS. Encoding, O31: a session operation is its request row, and the read and the decoders after it (30_encoding.md
R72, 43_session.md R130, R138). -/

namespace Sys2Proof

/-- An S_JOG payload carries one time, the first entry's (R58). -/
theorem jogPayload_withTime (first : MotionCommand) (others : List MotionCommand) (time : Byte) :
    jogPayload first (others.map fun e => e.jog.withTime time) = jogPayload first others := by
  rw [jogPayload, jogPayload, List.flatMap_cons, List.flatMap_cons, List.flatMap_map]
  rfl

/-- Neither the entries beyond the count nor the times after the first one reach the request of `run_motion`. -/
theorem motionRequest_eq_of_jog (first : MotionCommand) (others rest : List MotionCommand) :
    motionRequest (first :: others ++ rest) (1 + others.length) =
      motionRequest (((first :: others).map MotionCommand.jog).map fun e => e.withTime first.timeTicks)
        ((first :: others).map MotionCommand.jog).length := by
  have hall : (first :: others).length = 1 + others.length := Nat.add_comm _ _
  have htake : (first :: others ++ rest).take (1 + others.length) = first :: others := by
    rw [← hall, List.take_left]
  have htimes : ((first :: others).map MotionCommand.jog).map (fun e => e.withTime first.timeTicks) =
      first :: others.map fun e => e.jog.withTime first.timeTicks := by
    rw [List.map_map]
    rfl
  have hrange : (∀ e ∈ first :: others.map fun e => e.jog.withTime first.timeTicks, e.InRange) ↔
      ∀ e ∈ first :: others, e.InRange := by
    rw [List.forall_mem_cons, List.forall_mem_cons, List.forall_mem_map]
    rfl
  have hcount : 1 + others.length ≤ (first :: others ++ rest).length := hall ▸ (List.sublist_append_left _ rest).length_le
  rw [htimes, List.length_map, hall, motionRequest_of_cons hcount htake,
    motionRequest_of_cons (others := others.map fun e => e.jog.withTime first.timeTicks)
      (by rw [List.length_cons, List.length_map]; omega)
      (List.take_of_length_le (by simp [Nat.add_comm]))]
  simp only [hrange, jogPayload_withTime]

/-- Phase 5 of R130 in the words of R72: `decode_response`, then the field decoder, then the value returned. -/
theorem decodeReply_map {α β : Type} (n : Nat) (verify : Bool) (fields : Bytes → Result α) (f : α → β) (b : Bytes) :
    decodeReply n verify (fun b => (fields b).map f) b = (do
      let _ ← decodeResponse b (BitVec.ofNat 8 (n - Config.overhead)) verify
      let r ← fields b
      pure (f r)) := by
  dsimp only [decodeReply]
  cases decodeResponse b _ verify with
  | error e => rfl
  | ok r => cases fields b <;> rfl

end Sys2Proof

namespace Sys2Proof.Machine

section
variable {s t : State}

/-- An emission that returned `Ok` had its frame accepted and written. -/
theorem emit_ok {request : Result Bytes} (h : emit s request = .next t) (hret : t.ret = some (.ok .unit)) :
    s.busy = false ∧ ∃ f, request = .ok f ∧ s.th.writeEnding = .returns ∧
      t = (s.start.withTh (s.th.afterWrite f)).finish (.ok .unit) := by
  obtain ⟨hb, ⟨e, -, rfl⟩ | ⟨f, -, ⟨-, rfl⟩ | ⟨-, rfl⟩⟩ | hsent⟩ := emit_next s t request h
  · cases hret
  · cases hret
  · cases hret
  · exact ⟨hb, hsent⟩

/-- Starting an operation anew after `Ok` is where the last one stood after its write. -/
theorem State.start_finish_ok (u : State) (v : Value) (hb : u.busy = true) (hret : u.ret = none) :
    (u.finish (.ok v)).start = u := by
  cases u
  subst hb hret
  simp [State.start, State.finish]

theorem Transport.afterRead_of_returns {th : Transport} {n : Nat} (h : th.readEnding n = .returns) :
    th.afterRead n = th.lost n := by
  rw [Transport.afterRead, th.bytesTaken_of_returns n h]
  rfl

/-- A read whose bytes are there, and which the environment lets return, returns. -/
theorem State.Delivers.readEnding {b : Bytes} (h : s.Delivers b) : s.th.readEnding b.length = .returns := by
  obtain ⟨hreturns, hprefix⟩ := h
  simp only [Transport.readEnding, hreturns, hprefix.length_le, if_true]

theorem State.Delivers.take {b : Bytes} (h : s.Delivers b) : s.th.rx.take b.length = b :=
  (List.prefix_iff_eq_take.1 h.2).symm

/-- R72 for an operation that reads: its row, a read, `decode_response` and the field decoder. -/
theorem exchange_of_emit {α : Type} {request : Result Bytes} {n : Nat} {b : Bytes} (fields : Bytes → Result α)
    (f : α → Value) (hret : t.ret = some (.ok .unit)) (hb : s.Delivers b) (hn : b.length = n)
    (h : emit s request = .next t) :
    exchange s request n (fun b => (fields b).map f) = .next (State.finish { t with th := t.th.lost n } (do
      let _ ← decodeResponse b (BitVec.ofNat 8 (n - Config.overhead)) s.params.verifyDefault
      let r ← fields b
      pure (f r))) := by
  rw [← decodeReply_map]
  subst hn
  obtain ⟨hidle, frame, rfl, hw, rfl⟩ := emit_ok h hret
  have hread : (s.start.withTh (s.th.afterWrite frame)).th.readEnding b.length = .returns := hb.readEnding
  have htake : (s.start.withTh (s.th.afterWrite frame)).th.rx.take b.length = b := hb.take
  rw [exchange, issue_of_idle _ _ hidle, State.require_ok, State.send_of_returns s.start frame _ hw, State.start_th,
    State.awaitReply, State.receive_of_returns _ _ _ hread, htake, Transport.afterRead_of_returns hread]
  simp [State.finish, State.start, State.withTh]

/-- R72 for `clear_status`: its row, then `get_status`. -/
theorem exchangeTwo_of_emit {request second : Result Bytes} (n : Nat) (fields : Bytes → Result Value)
    (hret : t.ret = some (.ok .unit)) (h : emit s request = .next t) :
    exchangeTwo s request second n fields = exchange t second n fields := by
  obtain ⟨hidle, frame, rfl, hw, rfl⟩ := emit_ok h hret
  rw [exchangeTwo, exchange, issue_of_idle _ _ hidle, issue_of_idle _ _ (State.finish_busy _ _),
    State.start_finish_ok _ _ rfl rfl, State.require_ok, State.send_of_returns s.start frame _ hw]
  rfl

end

/-- Settles O31: both sides of a write-only row are one emission; the others are an emission that went on. -/
theorem sessionOperationsExpandAsTabled : Obligations.SessionOperationsExpandAsTabled :=
  ⟨fun _ _ _ => ⟨rfl, rfl, rfl, rfl⟩,
    fun s first others rest => congrArg (emit s) (motionRequest_eq_of_jog first others rest),
    fun _ _ _ _ hret =>
      ⟨exchangeTwo_of_emit Config.statRespLen _ hret,
        exchange_of_emit decodeAbsAngle (fun r => .millidegrees r.2) hret,
        exchange_of_emit decodeCalAngle .calibrated hret,
        exchange_of_emit decodeStatus .status hret⟩⟩

end Sys2Proof.Machine
end

section
/-! PROOFS. Checksum, O1 to O4: the XOR fold, and the two checksums as a masked byte and its complement under the mask
(40_checksum.md R80 to R84, R86). -/

namespace Sys2Proof

theorem fold_append (a b : Bytes) : fold (a ++ b) = fold a ^^^ fold b := by
  rw [fold, List.foldl_append, foldl_xor_start]
  rfl

theorem fold_eq_of_perm {a b : Bytes} (h : a.Perm b) : fold a = fold b := h.foldl_eq 0

/-- A byte that appears twice cancels (R83). -/
theorem fold_cons_cons_self (x : Byte) (p : Bytes) : fold (x :: x :: p) = fold p := by
  rw [fold_cons, fold_cons, ← BitVec.xor_assoc, BitVec.xor_self, BitVec.zero_xor]

/-- Settles O3: the fold is a homomorphism into XOR, which is commutative and cancels. -/
theorem foldIsIndependentOfOrderAndGrouping : Obligations.FoldIsIndependentOfOrderAndGrouping :=
  ⟨fold_nil, fold_append, fun _ _ => fold_eq_of_perm, fold_cons_cons_self, fun _ _ _ p => foldl_xor_start p _⟩

theorem xor_and_mask {w : Nat} (x y m : BitVec w) : (x ^^^ y) &&& m = (x &&& m) ^^^ (y &&& m) := by
  ext i hi
  simp only [BitVec.getElem_and, BitVec.getElem_xor, Bool.and_xor_distrib_right]

theorem fold_map_and (m : Byte) (p : Bytes) : fold (p.map (· &&& m)) = fold p &&& m := by
  induction p with
  | nil => exact BitVec.zero_and.symm
  | cons x xs ih => rw [List.map_cons, fold_cons, fold_cons, ih, xor_and_mask]

/-- The mask may be applied to each covered byte instead of their XOR. -/
theorem checksum1_eq_xor_masked (size id cmd : Byte) (p : Bytes) :
    checksum1 size id cmd p =
      (size &&& Config.csMask) ^^^ (id &&& Config.csMask) ^^^ (cmd &&& Config.csMask) ^^^
        fold (p.map (· &&& Config.csMask)) := by
  rw [fold_map_and, checksum1, xor_and_mask, xor_and_mask, xor_and_mask]

theorem csum_fst (size id cmd : Byte) (p : Bytes) : (csum size id cmd p).1 = checksum1 size id cmd p := rfl

/-- Settles O4: checksum1 is the XOR of the masked covered bytes, and a change of one term changes an XOR. -/
theorem checksumsCoverAllButBitZero : Obligations.ChecksumsCoverAllButBitZero := by
  refine ⟨fun size size' id id' cmd cmd' p p' hsize hid hcmd hp => ?_, fun size id cmd x x' p q hx => ?_⟩
  · have h : checksum1 size id cmd p = checksum1 size' id' cmd' p' := by
      rw [checksum1_eq_xor_masked, checksum1_eq_xor_masked, Config.csMask, hsize, hid, hcmd, hp]
    rw [csum, csum, h]
  · have hx' : x &&& Config.csMask ≠ x' &&& Config.csMask := hx
    simp only [csum_fst, checksum1_eq_xor_masked, List.map_append, List.map_cons, fold_append, fold_cons, ne_eq,
      BitVec.xor_left_inj, BitVec.xor_right_inj, hx', not_false_eq_true, and_self]

section
variable {w : Nat} {c m : BitVec w}

/-! A word within a mask and its complement under the mask split the bits of the mask between them. -/

theorem and_not_and_mask (c m : BitVec w) : c &&& (~~~c &&& m) = 0#w := by
  rw [← BitVec.and_assoc, BitVec.and_not_self, BitVec.ofNat_eq_ofNat, BitVec.zero_and]

theorem or_not_and_mask (h : c &&& m = c) : c ||| (~~~c &&& m) = m :=
  calc c ||| (~~~c &&& m) = (c ||| ~~~c) &&& m := by rw [BitVec.and_or_distrib_right, h]
    _ = m := by rw [BitVec.or_not_self, BitVec.allOnes_and]

theorem xor_not_and_mask (h : c &&& m = c) : c ^^^ (~~~c &&& m) = m :=
  calc c ^^^ (~~~c &&& m) = (c ^^^ ~~~c) &&& m := by rw [xor_and_mask, h]
    _ = m := by rw [← BitVec.not_xor_right, BitVec.xor_self, BitVec.not_zero, BitVec.allOnes_and]

theorem not_not_and_mask (h : c &&& m = c) : ~~~(~~~c &&& m) &&& m = c := by
  rw [BitVec.not_and, BitVec.not_not, BitVec.and_or_distrib_right, BitVec.not_and_self, BitVec.ofNat_eq_ofNat,
    BitVec.or_zero, h]

theorem toNat_add_toNat_not_and_mask (h : c &&& m = c) : c.toNat + (~~~c &&& m).toNat = m.toNat := by
  rw [← BitVec.toNat_add_of_and_eq_zero (and_not_and_mask c m), BitVec.add_eq_or_of_and_eq_zero _ _ (and_not_and_mask c m),
    or_not_and_mask h]

theorem ne_not_and_mask (h : c &&& m = c) (hm : m ≠ 0) : c ≠ ~~~c &&& m := by
  intro heq
  have hxor := xor_not_and_mask h
  rw [← heq, BitVec.xor_self] at hxor
  exact hm hxor.symm

theorem getLsbD_zero_and_mask (x : BitVec w) (hm : m.getLsbD 0 = false) : (x &&& m).getLsbD 0 = false := by
  rw [BitVec.getLsbD_and, hm, Bool.and_false]

theorem toNat_mod_two_of_getLsbD_zero (h : c.getLsbD 0 = false) : c.toNat % 2 = 0 :=
  Nat.mod_two_eq_zero_iff_testBit_zero.2 h

end

theorem checksum1_and_csMask (size id cmd : Byte) (p : Bytes) :
    checksum1 size id cmd p &&& Config.csMask = checksum1 size id cmd p := by
  rw [checksum1, BitVec.and_assoc, BitVec.and_self]

end Sys2Proof

namespace Sys2Proof.Machine

theorem exec_csum (size id cmd : Byte) (p : Bytes) (s : State) :
    exec (.csum size id cmd p) s =
      answer s (.ok (.checksums (checksum1 size id cmd p) (checksum2 (checksum1 size id cmd p)))) := rfl

/-- Settles O1: `csum` is an answer, and its two bytes are those of the rules' formulas. -/
theorem csumReturnsBothChecksums : Obligations.CsumReturnsBothChecksums := by
  intro s size id cmd p hb
  obtain ⟨h1, h2⟩ := Prod.ext_iff.1 (csum_eq_rule size id cmd p)
  exact (answer_ok_of_idle _ hb).trans (by rw [h1, h2])

/-- What `csum` has returned are the two checksums of the model. -/
theorem csum_returned {s t : State} {size id cmd c1 c2 : Byte} {p : Bytes} (h : exec (.csum size id cmd p) s = .next t)
    (hret : t.ret = some (.ok (.checksums c1 c2))) : c1 = checksum1 size id cmd p ∧ c2 = checksum2 c1 := by
  obtain ⟨-, rfl⟩ := answer_next _ _ _ (exec_csum size id cmd p s ▸ h)
  cases hret
  exact ⟨rfl, rfl⟩

/-- Settles O2: checksum1 lies within the mask and checksum2 is its complement there. -/
theorem checksumLawsHoldForEveryOutput : Obligations.ChecksumLawsHoldForEveryOutput := by
  intro s t size id cmd c1 c2 p h hret
  obtain ⟨hc1, rfl⟩ := csum_returned h hret
  have hmask : c1 &&& Config.csMask = c1 := hc1 ▸ checksum1_and_csMask size id cmd p
  have heven1 : c1.getLsbD 0 = false := hmask ▸ getLsbD_zero_and_mask c1 (by decide)
  have heven2 : (checksum2 c1).getLsbD 0 = false := getLsbD_zero_and_mask _ (by decide)
  exact ⟨rfl, heven1, heven2, xor_not_and_mask hmask, and_not_and_mask c1 _, or_not_and_mask hmask,
    toNat_add_toNat_not_and_mask hmask, toNat_mod_two_of_getLsbD_zero heven1, toNat_mod_two_of_getLsbD_zero heven2,
    (not_not_and_mask hmask).symm, ne_not_and_mask hmask (by decide)⟩

end Sys2Proof.Machine
end

section
/-! PROOFS. The packet framer, O5 and O7 to O10: `encode_request` and its inverse (41_framer.md R90, R92), and the three
payload marshallers (R94, R95, R97). -/

namespace Sys2Proof

/-- A command outside the closed set is refused whatever the payload (R91, D25). -/
theorem encodeRequest_of_illegal (id : Byte) {cmd : Byte} (p : Bytes) (h : cmd.toNat < 1 ∨ 9 < cmd.toNat) :
    encodeRequest id cmd p = .error .invalidArgument :=
  if_pos h

theorem framed_wireFrame (id cmd : Byte) {p : Bytes} (hp : p.length ≤ 248) : Framed (wireFrame id cmd p) :=
  framed_of_size _ id cmd _ _ p (toNat_packetSizeOf p hp)

theorem checksumsRight_wireFrame (id cmd : Byte) (p : Bytes) : ChecksumsRight (wireFrame id cmd p) :=
  ⟨_, _, _, _, _, _, rfl, rfl, rfl⟩

theorem decodeResponse_wireFrame (id cmd : Byte) {p : Bytes} (hp : p.length ≤ 248) (verify : Bool) :
    decodeResponse (wireFrame id cmd p) (BitVec.ofNat 8 p.length) verify =
      .ok ⟨packetSizeOf p, id, cmd, ruleChecksum1 (packetSizeOf p) id cmd p, ruleChecksum2 (packetSizeOf p) id cmd p, p⟩ := by
  have hlen : p.length = (BitVec.ofNat 8 p.length).toNat := by
    rw [BitVec.toNat_ofNat, Nat.mod_eq_of_lt (by omega)]
  exact (decodeResponse_of_form verify (toNat_packetSizeOf p hp) hlen).1 fun _ => checksumsRight_wireFrame id cmd p

theorem decodeHeader_wireFrame (id cmd : Byte) {p : Bytes} (hp : p.length ≤ 248) :
    decodeHeader (wireFrame id cmd p) = .ok (id, cmd, packetSizeOf p) := by
  rw [decodeHeader, (wellFramed_iff _).2 (framed_wireFrame id cmd hp)]
  rfl

theorem verifyChecksum_wireFrame (id cmd : Byte) {p : Bytes} (hp : p.length ≤ 248) :
    verifyChecksum (wireFrame id cmd p) = .ok true := by
  have hframed := framed_wireFrame id cmd hp
  rw [verifyChecksum, (wellFramed_iff _).2 hframed, (checksumsMatch_iff _ hframed).2 (checksumsRight_wireFrame id cmd p)]
  rfl

/-- A frame determines its operands, for the request reader takes it apart. -/
theorem encodeRequest_injective {id id' cmd cmd' : Byte} {p p' f : Bytes} (h : encodeRequest id cmd p = .ok f)
    (h' : encodeRequest id' cmd' p' = .ok f) : id' = id ∧ cmd' = cmd ∧ p' = p := by
  obtain ⟨rfl, -, -, hp⟩ := encodeRequest_ok _ _ _ _ h
  obtain ⟨hf, -, -, hp'⟩ := encodeRequest_ok _ _ _ _ h'
  have hread : requestOf (frameBytes id cmd p) = .ok (id', cmd', p') := hf ▸ requestOf_frameBytes id' cmd' p' hp'
  rw [requestOf_frameBytes id cmd p hp] at hread
  cases hread
  exact ⟨rfl, rfl, rfl⟩

/-- R94: register and length byte leave room for 246 data bytes. -/
theorem marshalRamWrite_eq (register : Byte) (data : Bytes) :
    marshalRamWrite register data =
      if data.length ≤ 246 then .ok (register :: BitVec.ofNat 8 data.length :: data) else .error .payloadTooLarge := by
  rw [marshalRamWrite, Config.maxPayload]
  by_cases h : data.length ≤ 246
  · rw [if_pos h, if_neg (by omega)]
  · rw [if_neg h, if_pos (by omega)]

/-- The size is checked last: 62 entries in range do not fit (D25). -/
theorem marshalSjog_of_too_many {es : List MotionCommand} {n : Nat} (h62 : 62 ≤ n) (hn : n ≤ es.length)
    (hr : ∀ e ∈ es.take n, e.InRange) : marshalSjog es n = .error .payloadTooLarge := by
  obtain ⟨first, others, ht⟩ := exists_take_eq_cons (by omega) hn
  rw [marshalSjog_of_cons hn ht, if_pos (ht ▸ hr), if_neg (by omega)]

/-- The first entries of a list are laid out where there are at most 61 of them, each in range. -/
theorem marshalSjog_append (first : MotionCommand) (others rest : List MotionCommand) (h61 : 1 + others.length ≤ 61)
    (hr : ∀ e ∈ first :: others, e.InRange) :
    marshalSjog (first :: others ++ rest) (1 + others.length) = .ok (first.motorId, jogPayload first others) := by
  have hcount : 1 + others.length = (first :: others).length := Nat.add_comm _ _
  have hn : 1 + others.length ≤ (first :: others ++ rest).length := by
    rw [List.length_append]
    omega
  have ht : (first :: others ++ rest).take (1 + others.length) = first :: others := hcount ▸ List.take_left
  rw [marshalSjog_of_cons hn ht, if_pos hr, if_pos h61]

end Sys2Proof

namespace Sys2Proof.Machine

/-- A codec operation's refusal of its operands leaves the result alone changed (R151, R152). -/
theorem answer_error_of_idle {s : State} {e : Err} (he : e.isGhostFault = false) (h : s.busy = false) :
    answer s (.error e) = .next { s with ret := some (.error e) } := by
  rw [answer_of_idle s _ h, isGhostFault_error, he, Bool.or_false]

theorem exec_encodeRequest (id cmd : Byte) (p : Bytes) (s : State) :
    exec (.encodeRequest id cmd p) s = answer s ((encodeRequest id cmd p).map .packet) := rfl

theorem exec_marshalRamWrite (register : Byte) (data : Bytes) (s : State) :
    exec (.marshalRamWrite register data) s = answer s ((marshalRamWrite register data).map .payload) := rfl

theorem exec_marshalRamRead (register length : Byte) (s : State) :
    exec (.marshalRamRead register length) s = answer s (.ok (.payload [register, length])) := rfl

theorem exec_marshalSjog (es : List MotionCommand) (n : Nat) (s : State) :
    exec (.marshalSjog es n) s = answer s ((marshalSjog es n).map fun r => .sjog r.1 r.2) := rfl

/-- Settles O7: the frame is framed and its checksums are right, the laws of R82 are O2's, and the decoder reads the
operands back. -/
theorem decoderInvertsFramer : Obligations.DecoderInvertsFramer := by
  intro id cmd p f h
  obtain ⟨hf, -, -, hp⟩ := encodeRequest_ok id cmd p f h
  rw [frameBytes_eq_wireFrame] at hf
  subst hf
  obtain ⟨-, h0, h1, hsize, -⟩ := framed_wireFrame id cmd hp
  have hlength : (wireFrame id cmd p).length = 7 + p.length := frameBytes_eq_wireFrame id cmd p ▸ length_frameBytes id cmd p
  have hcsum := csumReturnsBothChecksums State.reset (packetSizeOf p) id cmd p rfl
  obtain ⟨hcomplement, heven1, heven2, hxor, hand, hor, hsum, hmod1, hmod2, hinverse, -⟩ :=
    checksumLawsHoldForEveryOutput State.reset _ (packetSizeOf p) id cmd _ _ p hcsum rfl
  exact ⟨hlength, hsize, h0, h1, rfl, rfl, rfl,
    ⟨_, _, rfl, rfl, hcomplement, heven1, heven2, hxor, hand, hor, hsum, hmod1, hmod2, hinverse,
      decodeResponse_wireFrame id cmd hp true⟩,
    decodeHeader_wireFrame id cmd hp, verifyChecksum_wireFrame id cmd hp, fun _ _ _ h' => encodeRequest_injective h h'⟩

/-- Settles O5, by the three ways `encode_request` can end. -/
theorem encodeRequestFramesOrRefuses : Obligations.EncodeRequestFramesOrRefuses := by
  intro s id cmd p hb
  refine ⟨fun h1 h9 hp => ?_, fun hcmd => ?_, fun h1 h9 hp => ?_⟩
  · rw [exec_encodeRequest, encodeRequest_of_legal id cmd p h1 h9 hp]
    exact answer_ok_of_idle _ hb
  · rw [RefusesArgument, exec_encodeRequest, encodeRequest_of_illegal id p hcmd]
    exact answer_error_of_idle rfl hb
  · rw [exec_encodeRequest, encodeRequest_of_too_long id h1 h9 hp]
    exact answer_error_of_idle rfl hb

/-- Settles O10, by the three ways `marshal_sjog` can end. -/
theorem marshalSjogLaysOutOrRefuses : Obligations.MarshalSjogLaysOutOrRefuses := by
  intro s es count hb
  refine ⟨fun first others rest hes hcount h61 hr => ?_, fun hrefused => ?_, fun h62 hn hr => ?_⟩
  · subst hes hcount
    rw [exec_marshalSjog, marshalSjog_append first others rest h61 hr]
    exact answer_ok_of_idle _ hb
  · rw [RefusesArgument, exec_marshalSjog, marshalSjog_of_refused hrefused]
    exact answer_error_of_idle rfl hb
  · rw [exec_marshalSjog, marshalSjog_of_too_many h62 hn hr]
    exact answer_error_of_idle rfl hb

/-- Settles O8, by whether the data fit. -/
theorem marshalRamWriteLaysOutThePayload : Obligations.MarshalRamWriteLaysOutThePayload := by
  intro s register data hb
  rw [exec_marshalRamWrite, marshalRamWrite_eq]
  split_ifs
  · exact answer_ok_of_idle _ hb
  · exact answer_error_of_idle rfl hb

/-- Settles O9: the operation is an answer with the two bytes. -/
theorem marshalRamReadLaysOutThePayload : Obligations.MarshalRamReadLaysOutThePayload :=
  fun s register length hb => (exec_marshalRamRead register length s).trans (answer_ok_of_idle _ hb)

end Sys2Proof.Machine
end

section
/-! PROOFS. The decoder, O12 to O17: framing first, then each operation's length bound, then its fields
(42_decoder.md R110 to R116). -/

namespace Sys2Proof

/-! ## Framing and length -/

section
variable {b : Bytes}

/-- The one test of a field decoder: the framing and its length bound (R111, D23). -/
theorem unframed_or_short_iff (n : Nat) : (!wellFramed b || decide (b.length < n)) = true ↔ ¬Framed b ∨ b.length < n := by
  rw [Bool.or_eq_true, Bool.not_eq_true', ← Bool.not_eq_true, wellFramed_iff, decide_eq_true_iff]

theorem framed_and_long_iff (n : Nat) : ¬(!wellFramed b || decide (b.length < n)) = true ↔ Framed b ∧ n ≤ b.length := by
  rw [unframed_or_short_iff, not_or, not_not, not_lt]

theorem getElem?_eq_byteAt {k : Nat} (h : k < b.length) : b[k]? = some (byteAt b k) := by
  rw [byteAt, List.getElem?_eq_getElem h, Option.getD_some]

/-! ## Header, checksum test and whole response -/

theorem decodeHeader_of_unframed (h : ¬Framed b) : decodeHeader b = .error .malformed := by
  rw [decodeHeader, wellFramed_eq_false b h]
  rfl

theorem decodeHeader_of_form {size id cmd c1 c2 : Byte} {p : Bytes} (hsize : size.toNat = 7 + p.length) :
    decodeHeader ([0xFF, 0xFF, size, id, cmd, c1, c2] ++ p) = .ok (id, cmd, size) := by
  rw [decodeHeader, (wellFramed_iff _).2 (framed_of_size size id cmd c1 c2 p hsize)]
  rfl

theorem verifyChecksum_of_unframed (h : ¬Framed b) : verifyChecksum b = .error .malformed := by
  rw [verifyChecksum, wellFramed_eq_false b h]
  rfl

theorem verifyChecksum_of_framed (h : Framed b) : verifyChecksum b = .ok (checksumsMatch b) := by
  rw [verifyChecksum, (wellFramed_iff b).2 h]
  rfl

theorem decodeResponse_of_unexpected {epl : Byte} (verify : Bool) (h : ¬Framed b ∨ b.length ≠ 7 + epl.toNat) :
    decodeResponse b epl verify = .error .malformed := by
  by_cases hb : Framed b
  · rw [decodeResponse, (wellFramed_iff b).2 hb]
    exact if_pos (h.resolve_left (not_not.2 hb))
  · rw [decodeResponse, wellFramed_eq_false b hb]
    rfl

/-- The checksums are compared only once framing and length are right (R110, D25). -/
theorem decodeResponse_of_wrong_checksums {epl : Byte} (hb : Framed b) (hlen : b.length = 7 + epl.toNat)
    (hwrong : ¬ChecksumsRight b) : decodeResponse b epl true = .error .corrupt := by
  obtain ⟨size, id, cmd, c1, c2, p, rfl, hsize⟩ := hb.form
  have hepl : p.length = epl.toNat := Nat.add_left_cancel (List.length_append.symm.trans hlen)
  exact (decodeResponse_of_form true hsize hepl).2 fun h => hwrong (h rfl)

/-! ## The field decoders -/

theorem decodeAbsAngle_of_unframed_or_short (h : ¬Framed b ∨ b.length < 11) : decodeAbsAngle b = .error .malformed :=
  if_pos ((unframed_or_short_iff 11).2 h)

theorem decodeAbsAngle_of_framed (h : Framed b) (hlen : 11 ≤ b.length) :
    decodeAbsAngle b = .ok (rawAt b, millidegreesOf (rawAt b)) :=
  if_neg ((framed_and_long_iff 11).2 ⟨h, hlen⟩)

theorem decodeCalAngle_of_unframed_or_short (h : ¬Framed b ∨ b.length < 11) : decodeCalAngle b = .error .malformed :=
  if_pos ((unframed_or_short_iff 11).2 h)

theorem decodeCalAngle_of_framed (h : Framed b) (hlen : 11 ≤ b.length) : decodeCalAngle b = .ok (calibratedOf (rawAt b)) :=
  if_neg ((framed_and_long_iff 11).2 ⟨h, hlen⟩)

theorem decodeStatus_of_unframed_or_short (h : ¬Framed b ∨ b.length < 9) : decodeStatus b = .error .malformed :=
  if_pos ((unframed_or_short_iff 9).2 h)

theorem decodeStatus_of_framed (h : Framed b) (hlen : 9 ≤ b.length) : decodeStatus b = .ok (statusOf b) :=
  if_neg ((framed_and_long_iff 9).2 ⟨h, hlen⟩)

end

theorem statusOf_append (a : Bytes) (se sd : Byte) : statusOf (a ++ [se, sd]) = ⟨se, sd⟩ := by
  simp [statusOf, byteAt]

end Sys2Proof

namespace Sys2Proof.Machine

section
variable (b : Bytes) (s : State)

theorem exec_decodeHeader : exec (.decodeHeader b) s = answer s ((decodeHeader b).map fun r => .header r.1 r.2.1 r.2.2) := rfl

theorem exec_decodeResponse (epl : Byte) (verify : Bool) :
    exec (.decodeResponse b epl verify) s = answer s ((decodeResponse b epl verify).map .response) := rfl

theorem exec_verifyChecksum : exec (.verifyChecksum b) s = answer s ((verifyChecksum b).map .verified) := rfl

theorem exec_decodeAbsAngle : exec (.decodeAbsAngle b) s = answer s ((decodeAbsAngle b).map fun r => .absAngle r.1 r.2) := rfl

theorem exec_decodeCalAngle : exec (.decodeCalAngle b) s = answer s ((decodeCalAngle b).map (.calAngle (rawAt b) ·)) := rfl

theorem exec_decodeStatus : exec (.decodeStatus b) s = answer s ((decodeStatus b).map .status) := rfl

end

theorem answer_malformed_of_idle {s : State} (h : s.busy = false) :
    answer s (.error .malformed) = .next { s with ret := some (.error .malformed), ghostFault := true } := by
  rw [answer_of_idle s _ h, isGhostFault_error, Err.isGhostFault, Bool.or_true]

/-- Settles O12, by whether the bytes are framed. -/
theorem decodeHeaderReadsThreeFields : Obligations.DecodeHeaderReadsThreeFields := by
  intro s b hb
  refine ⟨fun hunframed => ?_, fun size id cmd c1 c2 p hform hsize => ?_⟩
  · rw [exec_decodeHeader, decodeHeader_of_unframed hunframed]
    exact answer_malformed_of_idle hb
  · rw [exec_decodeHeader, hform, decodeHeader_of_form hsize]
    exact answer_ok_of_idle _ hb

/-- Settles O13, by the three ways `decode_response` can end. -/
theorem decodeResponseChecksFramingThenLengthThenChecksums :
    Obligations.DecodeResponseChecksFramingThenLengthThenChecksums := by
  intro s b epl verify hb
  refine ⟨fun hunexpected => ?_, fun hframed hlen hverify hwrong => ?_,
    fun size id cmd c1 c2 p hform hsize hepl hright => ?_⟩
  · rw [exec_decodeResponse, decodeResponse_of_unexpected verify hunexpected]
    exact answer_malformed_of_idle hb
  · rw [exec_decodeResponse, hverify, decodeResponse_of_wrong_checksums hframed hlen hwrong]
    exact answer_corrupt_of_idle hb
  · subst hform
    rw [exec_decodeResponse, (decodeResponse_of_form verify hsize hepl).1 hright]
    exact answer_ok_of_idle _ hb

/-- Settles O14: on a framed sequence the result is the checksum test, which is R113's. -/
theorem verifyChecksumComparesBothBytes : Obligations.VerifyChecksumComparesBothBytes := by
  intro s b hb
  refine ⟨fun hunframed => ?_, fun hframed hright => ?_, fun hframed hwrong => ?_⟩
  · rw [exec_verifyChecksum, verifyChecksum_of_unframed hunframed]
    exact answer_malformed_of_idle hb
  · rw [exec_verifyChecksum, verifyChecksum_of_framed hframed, (checksumsMatch_iff b hframed).2 hright]
    exact answer_ok_of_idle _ hb
  · rw [exec_verifyChecksum, verifyChecksum_of_framed hframed, checksumsMatch_eq_false b hframed hwrong]
    exact answer_ok_of_idle _ hb

/-- Settles O15: raw is put together from the bytes at 9 and 10, and its product with 325 fits in 25 bits. -/
theorem decodeAbsAngleIsExactMillidegrees : Obligations.DecodeAbsAngleIsExactMillidegrees := by
  intro s b hb
  refine ⟨fun hmalformed => ?_, fun hframed hlen =>
    ⟨byteAt b 9, byteAt b 10, rawAt b, millidegreesOf (rawAt b), getElem?_eq_byteAt (by omega), getElem?_eq_byteAt hlen,
      toNat_rawOf _ _, toNat_millidegreesOf _, ?_⟩⟩
  · rw [exec_decodeAbsAngle, decodeAbsAngle_of_unframed_or_short hmalformed]
    exact answer_malformed_of_idle hb
  · rw [exec_decodeAbsAngle, decodeAbsAngle_of_framed hframed hlen]
    exact answer_ok_of_idle _ hb

/-- Settles O16: raw is put together as in O15, and the mask keeps its value modulo 1024. -/
theorem decodeCalAngleKeepsTenBits : Obligations.DecodeCalAngleKeepsTenBits := by
  intro s b hb
  refine ⟨fun hmalformed => ?_, fun hframed hlen =>
    ⟨byteAt b 9, byteAt b 10, rawAt b, calibratedOf (rawAt b), getElem?_eq_byteAt (by omega), getElem?_eq_byteAt hlen,
      toNat_rawOf _ _, toNat_calibratedOf _, ?_⟩⟩
  · rw [exec_decodeCalAngle, decodeCalAngle_of_unframed_or_short hmalformed]
    exact answer_malformed_of_idle hb
  · rw [exec_decodeCalAngle, decodeCalAngle_of_framed hframed hlen]
    exact answer_ok_of_idle _ hb

/-- Settles O17: the last two bytes are those appended last. -/
theorem decodeStatusReadsTheLastTwoBytes : Obligations.DecodeStatusReadsTheLastTwoBytes := by
  intro s b hb
  refine ⟨fun hmalformed => ?_, fun a se sd happend hframed hlen => ?_⟩
  · rw [exec_decodeStatus, decodeStatus_of_unframed_or_short hmalformed]
    exact answer_malformed_of_idle hb
  · rw [exec_decodeStatus, decodeStatus_of_framed hframed hlen, happend, statusOf_append]
    exact answer_ok_of_idle _ hb

end Sys2Proof.Machine
end

section
/-! PROOFS. The decoder, O18 and O19: the 16 status flags (42_decoder.md R117 to R119). -/

namespace Sys2Proof

/-- The word of R119 is the detail byte above the error byte. -/
theorem flagBits_eq_append (st : Status) : flagBits st = st.statusDetail ++ st.statusError := by
  rw [flagBits, BitVec.or_comm, ← BitVec.setWidth_append_eq_shiftLeft_setWidth_or, BitVec.setWidth_eq]

theorem getLsbD_flagBits_error (st : Status) {k : Nat} (h : k < 8) :
    (flagBits st).getLsbD k = st.statusError.getLsbD k := by
  rw [flagBits_eq_append, BitVec.getLsbD_append, if_pos h]

theorem getLsbD_flagBits_detail (st : Status) (k : Nat) : (flagBits st).getLsbD (8 + k) = st.statusDetail.getLsbD k := by
  rw [flagBits_eq_append, BitVec.getLsbD_append, if_neg (by omega), Nat.add_sub_cancel_left]

theorem flagBits_eq_zero_iff (st : Status) : flagBits st = 0 ↔ st.statusError = 0 ∧ st.statusDetail = 0 := by
  rw [flagBits_eq_append]
  constructor
  · intro h
    constructor
    · rw [← BitVec.setWidth_append_eq_right (a := st.statusDetail) (b := st.statusError), h]
      rfl
    · rw [← BitVec.extractLsb'_append_eq_left (a := st.statusDetail) (b := st.statusError), h]
      rfl
  · rintro ⟨herror, hdetail⟩
    rw [herror, hdetail]
    rfl

/-- Reserved bits count: some flag is set where one of the bytes is not 0 (D20). -/
theorem anyFlagSet_iff (st : Status) : anyFlagSet st = true ↔ st.statusError ≠ 0 ∨ st.statusDetail ≠ 0 := by
  rw [anyFlagSet, bne_iff_ne, ne_eq, flagBits_eq_zero_iff, not_and_or]

/-- The bit test of R117 and R118. -/
theorem shiftRight_and_one_beq_one (x : Byte) (k : Nat) : ((x >>> k) &&& 1 == 1) = x.getLsbD k := by
  have hbit : x.getLsbD k = (x >>> k).getLsbD 0 := by rw [BitVec.getLsbD_ushiftRight, Nat.add_zero]
  rw [hbit, BitVec.ofNat_eq_ofNat, BitVec.and_one_eq_setWidth_ofBool_getLsbD]
  cases (x >>> k).getLsbD 0 <;> rfl

theorem Status.hasError_eq (st : Status) (f : ErrorFlag) : st.hasError f = st.statusError.getLsbD f.bit :=
  shiftRight_and_one_beq_one st.statusError f.bit

theorem Status.hasDetail_eq (st : Status) (f : DetailFlag) : st.hasDetail f = st.statusDetail.getLsbD f.bit :=
  shiftRight_and_one_beq_one st.statusDetail f.bit

/-- Settles O19: each flag is the bit at the position of its table. -/
theorem namedFlagsAreTheirBits : Obligations.NamedFlagsAreTheirBits := by
  intro st
  constructor
  · intro f
    cases f <;> exact st.hasError_eq _
  · intro f
    cases f <;> exact st.hasDetail_eq _

end Sys2Proof

namespace Sys2Proof.Machine

theorem exec_statusFlags (se sd : Byte) (s : State) :
    exec (.statusFlags se sd) s = answer s (.ok (.flags (flagBits ⟨se, sd⟩) (anyFlagSet ⟨se, sd⟩))) := rfl

/-- Settles O18: the word is the two bytes side by side. -/
theorem statusFlagsCopyEveryBit : Obligations.StatusFlagsCopyEveryBit := by
  intro s se sd hb
  exact ⟨flagBits ⟨se, sd⟩, anyFlagSet ⟨se, sd⟩, (exec_statusFlags se sd s).trans (answer_ok_of_idle _ hb),
    fun k hk => ⟨getLsbD_flagBits_error ⟨se, sd⟩ hk, getLsbD_flagBits_detail ⟨se, sd⟩ k⟩, anyFlagSet_iff ⟨se, sd⟩⟩

end Sys2Proof.Machine
end

section
/-! PROOFS. The session, O21 to O25: the operations that await no response (43_session.md R131 to R134, R139). Each is the
emission of its request, which ends or refuses its operands as the FRAME_FIXED rows do. -/

namespace Sys2Proof.Machine

/-- Settles O21: the request of `set_led` is an emission of the rules' frame. -/
theorem setLedWritesItsFrame : Obligations.SetLedWritesItsFrame := by
  intro s id c hb
  obtain ⟨hends, hrefuses⟩ := emissionEnds_or_refuses (i := .setLed id c) hb rfl (congrArg (emit s) (ledRequest_eq id c))
  exact ⟨fun hid hc => hends _ (if_pos ⟨hid, hc⟩), fun hout => hrefuses (if_neg (by tauto))⟩

/-- Settles O22: the request of `set_acknowledge_policy` is an emission of the rules' frame. -/
theorem setAcknowledgePolicyWritesItsFrame : Obligations.SetAcknowledgePolicyWritesItsFrame := by
  intro s id v hb
  obtain ⟨hends, hrefuses⟩ := emissionEnds_or_refuses (i := .setAcknowledgePolicy id v) hb rfl
    (congrArg (emit s) (policyRequest_eq s.params id v))
  refine ⟨fun hid hv => hends _ (if_pos ⟨hid, hv⟩), fun hout => hrefuses (if_neg ?_)⟩
  rintro ⟨hid, hv⟩
  exact hout.elim hid hv.not_gt

/-- Settles O23: the request of `set_control_mode` is an emission of the rules' frame. -/
theorem setControlModeWritesItsFrame : Obligations.SetControlModeWritesItsFrame := by
  intro s id m hb
  obtain ⟨hends, hrefuses⟩ := emissionEnds_or_refuses (i := .setControlMode id m) hb rfl
    (congrArg (emit s) (controlModeRequest_eq s.params id m))
  refine ⟨fun hid hm => hends _ (if_pos ⟨hid, hm⟩), fun hout => hrefuses (if_neg ?_)⟩
  rintro ⟨hid, hm⟩
  exact hout.elim hid hm.not_gt

theorem firstRequest_setTorque (p : Config.Params) (id m : Byte) :
    firstRequest p (.setTorque id m) =
      if id ≠ 255 then (torqueWire m).map fun t => wireFrame id 0x03 [p.regTorque, 1, t] else none := rfl

/-- Only the indices 0, 1 and 2 have a wire code (R62, R134). -/
theorem torqueWire_of_two_lt {m : Byte} (h : 2 < m.toNat) : torqueWire m = none := by
  obtain ⟨hm, -⟩ | ⟨-, hnone, -⟩ := torque_cases m
  · exact absurd hm h.not_ge
  · exact hnone

/-- Settles O24: the request of `set_torque` is an emission, with the wire code of the index. -/
theorem setTorqueWritesItsFrame : Obligations.SetTorqueWritesItsFrame := by
  intro s id m hb
  obtain ⟨hends, hrefuses⟩ := emissionEnds_or_refuses (i := .setTorque id m) hb rfl
    (congrArg (emit s) (torqueRequest_eq s.params id m))
  refine ⟨fun code hid hcode => hends _ ?_, fun hout => hrefuses ?_⟩
  · have hwire : torqueWire m = some code := by
      obtain ⟨rfl, rfl⟩ | ⟨rfl, rfl⟩ | ⟨rfl, rfl⟩ := hcode <;> rfl
    rw [firstRequest_setTorque, if_pos hid, hwire, Option.map_some]
  · rw [firstRequest_setTorque]
    obtain hid | hm := hout
    · exact if_neg (not_not.2 hid)
    · rw [torqueWire_of_two_lt hm, Option.map_none, ite_self]

theorem exec_runMotion (es : List MotionCommand) (n : Nat) (s : State) :
    exec (.runMotion es n) s = emit s (motionRequest es n) := rfl

/-- The rules' frame of `run_motion` for the entries before the count, whatever follows them (R98, R139). -/
theorem motionFrame_append (first : MotionCommand) (others rest : List MotionCommand) (h61 : 1 + others.length ≤ 61)
    (hr : ∀ e ∈ first :: others, e.InRange) :
    motionFrame (first :: others ++ rest) (1 + others.length) =
      some (wireFrame first.motorId 0x06 (jogPayload first others)) := by
  refine (motionRequest_eq_ok_iff _ _ _).1 ?_
  rw [motionRequest, marshalSjog_append first others rest h61 hr]
  exact encodeRequest_of_legal _ _ _ (by decide) (by decide) (by rw [length_jogPayload, List.length_cons]; omega)

/-- Settles O25, by the three ways the request of `run_motion` can come out. -/
theorem runMotionWritesItsFrame : Obligations.RunMotionWritesItsFrame := by
  intro s es count hb
  refine ⟨fun first others rest hes hcount h61 hr => ?_, fun hrefused => ?_, fun h62 hn hr => ?_⟩
  · subst hes hcount
    exact emissionEnds_of_firstRequest hb rfl (motionFrame_append first others rest h61 hr)
  · rw [RefusesArgument, exec_runMotion, motionRequest_of_refused hrefused]
    exact emit_of_error hb rfl
  · rw [exec_runMotion, motionRequest_of_too_many h62 hn hr]
    exact emit_of_error hb rfl

end Sys2Proof.Machine
end

section
/-! PROOFS. The session, O27 to O30: the operations that read a response (43_session.md R130, R135 to R138). How an exchange
ends is said once, for every operation whose field decoder accepts any framed response of the expected length. -/

namespace Sys2Proof

section
variable {n : Nat} {b : Bytes} (verify : Bool) (fields : Bytes → Result Value)

/-- Phase 5 stops at bytes that are no frame (R111). -/
theorem decodeReply_of_unframed (h : ¬Framed b) : decodeReply n verify fields b = .error .malformed := by
  rw [decodeReply, decodeResponse_of_unexpected verify (.inl h)]

/-- Phase 5 for a framed response of the expected length: only its checksums decide whether the field decoder sees it. -/
theorem decodeReply_of_framed (hb : Framed b) (hn : b.length = n) :
    ((verify = true → ChecksumsRight b) → decodeReply n verify fields b = fields b) ∧
    (¬(verify = true → ChecksumsRight b) → decodeReply n verify fields b = .error .corrupt) := by
  obtain ⟨size, id, cmd, c1, c2, p, rfl, hsize⟩ := hb.form
  have hepl : p.length = (BitVec.ofNat 8 (n - Config.overhead)).toNat := by
    have hlt := size.isLt
    have hlength : 7 + p.length = n := List.length_append.symm.trans hn
    rw [BitVec.toNat_ofNat, Config.overhead]
    omega
  obtain ⟨hok, hcorrupt⟩ := decodeResponse_of_form (id := id) (cmd := cmd) (c1 := c1) (c2 := c2) verify hsize hepl
  exact ⟨fun h => by rw [decodeReply, hok h], fun h => by rw [decodeReply, hcorrupt h]⟩

end

end Sys2Proof

namespace Sys2Proof.Machine

section
variable {n : Nat} {t : Transport}

theorem Transport.readEnding_of_fails (n : Nat) (h : t.nextRead.ending = .fails) : t.readEnding n = .fails := by
  simp only [Transport.readEnding, h]

/-- A read that the environment lets return still does not where too few bytes ever arrive (R32). -/
theorem Transport.readEnding_of_never
    (h : t.nextRead.ending = .never ∨ (t.nextRead.ending = .returns ∧ t.rx.length < n)) : t.readEnding n = .never := by
  obtain h | ⟨h, hshort⟩ := h
  · simp only [Transport.readEnding, h]
  · simp only [Transport.readEnding, h, if_neg hshort.not_ge]

theorem Transport.afterRead_eq_lost (t : Transport) (n : Nat) : t.afterRead n = t.lost (t.bytesTaken n) := rfl

end

section
variable {s : State} {i : Instr} {f : Bytes} {n : Nat} {fields : Bytes → Result Value}

theorem exchange_of_success (n : Nat) (fields : Bytes → Result Value) (hb : s.busy = false)
    (hw : s.th.nextWrite = .success) :
    exchange s (.ok f) n fields = .next ((s.start.withTh (s.th.wrote f)).awaitReply n fields) := by
  have hreturns : s.start.th.writeEnding = .returns := Transport.writeEnding_of_success _ hw
  rw [exchange, issue_of_idle _ _ hb, State.require_ok, State.send_of_returns _ _ _ hreturns, State.start_th,
    Transport.afterWrite_of_success f hw]

/-- Phases 5 and 6 after a read that returned a response of the expected length. -/
theorem exchange_of_delivers {b : Bytes} (hb : s.busy = false) (hw : s.th.nextWrite = .success) (hd : s.Delivers b)
    (hn : b.length = n) :
    let r := decodeReply n s.params.verifyDefault fields b
    exchange s (.ok f) n fields =
      .next { s with th := (s.th.wrote f).lost n, ret := some r, ghostFault := s.ghostFault || isGhostFault r } := by
  subst hn
  have hread : (s.start.withTh (s.th.wrote f)).th.readEnding b.length = .returns := hd.readEnding
  have htake : (s.start.withTh (s.th.wrote f)).th.rx.take b.length = b := hd.take
  rw [exchange_of_success _ _ hb hw, State.awaitReply, State.receive_of_returns _ _ _ hread, htake,
    Transport.afterRead_of_returns hread]
  exact congrArg _ (State.finish_withTh_start _ _ hb)

/-- An accepted exchange ends as phases 3 to 6 list, where every framed response of the expected length has the fields the
operation decodes. -/
theorem exchangeEnds_of_fields {result : Bytes → Value → Prop} (hb : s.busy = false)
    (hf : firstRequest s.params i = some f) (hx : exec i s = exchange s (.ok f) n fields)
    (hfields : ∀ b, Framed b → b.length = n → ∃ v, result b v ∧ fields b = .ok v) : ExchangeEnds s i f n result := by
  refine ⟨writeStops_of_firstRequest hb hf, fun hw => ⟨fun hfails => ?_, fun hnever => ?_, fun b hd hn => ?_⟩⟩
  · have hread : (s.start.withTh (s.th.wrote f)).th.readEnding n = .fails := Transport.readEnding_of_fails n hfails
    refine ⟨_, Transport.bytesTaken_of_fails _ n hread, ?_⟩
    rw [hx, exchange_of_success _ _ hb hw, State.awaitReply, State.receive_of_fails _ _ _ hread]
    refine congrArg _ ((State.finish_withTh_start _ _ hb).trans ?_)
    rw [Transport.afterRead_eq_lost, isGhostFault_error, Err.isGhostFault, Bool.or_true]
    rfl
  · have hread : (s.start.withTh (s.th.wrote f)).th.readEnding n = .never := Transport.readEnding_of_never hnever
    refine ⟨(s.th.wrote f).bytesTaken n, ?_⟩
    rw [hx, exchange_of_success _ _ hb hw, State.awaitReply, State.receive_of_never _ _ _ hread]
    rfl
  · rw [hx, exchange_of_delivers hb hw hd hn]
    refine ⟨fun hunframed => ?_, fun hframed hwrong => ?_, fun hframed haccepts => ?_⟩
    · rw [decodeReply_of_unframed _ _ hunframed, isGhostFault_error, Err.isGhostFault, Bool.or_true]
    · rw [(decodeReply_of_framed _ fields hframed hn).2 hwrong, isGhostFault_error, Err.isGhostFault, Bool.or_true]
    · obtain ⟨v, hv, hdecoded⟩ := hfields b hframed hn
      refine ⟨v, hv, ?_⟩
      rw [(decodeReply_of_framed _ fields hframed hn).1 haccepts, hdecoded, isGhostFault_ok, Bool.or_false]

/-- Operands refused before any transport call end every session operation as they end an emission. -/
theorem exchange_error_eq_emit (s : State) (e : Err) (n : Nat) (fields : Bytes → Result Value) :
    exchange s (.error e) n fields = emit s (.error e) := rfl

/-- An exchange whose request is the rules' frame ends as the rules say, or refuses its operands. -/
theorem exchangeEnds_or_refuses {result : Bytes → Value → Prop} (hb : s.busy = false)
    (hx : exec i s = exchange s (acceptedOr (firstRequest s.params i)) n fields)
    (hfields : ∀ b, Framed b → b.length = n → ∃ v, result b v ∧ fields b = .ok v) :
    (∀ f, firstRequest s.params i = some f → ExchangeEnds s i f n result) ∧
      (firstRequest s.params i = none → RefusesArgument s i) := by
  refine ⟨fun f hf => exchangeEnds_of_fields hb hf (by rw [hx, hf]; rfl) hfields, fun hnone => ?_⟩
  rw [RefusesArgument, hx, hnone]
  exact (exchange_error_eq_emit s _ n fields).trans (emit_of_error hb rfl)

end

theorem exec_getAbsoluteAngle (id : Byte) (s : State) :
    exec (.getAbsoluteAngle id) s =
      exchange s (absoluteAngleRequest id) 13 fun b => (decodeAbsAngle b).map fun r => .millidegrees r.2 := rfl

theorem exec_getCalibratedAngle (id : Byte) (s : State) :
    exec (.getCalibratedAngle id) s =
      exchange s (calibratedAngleRequest id) 13 fun b => (decodeCalAngle b).map .calibrated := rfl

theorem exec_getStatus (id : Byte) (s : State) :
    exec (.getStatus id) s = exchange s (statusRequest id) 9 fun b => (decodeStatus b).map .status := rfl

theorem exec_clearStatus (id : Byte) (s : State) :
    exec (.clearStatus id) s =
      exchangeTwo s (clearRequest s.params id) (statusRequest id) 9 fun b => (decodeStatus b).map .status := rfl

/-- Of a framed response of 13 bytes the angle decoder returns the position in millidegrees (R57, R114). -/
theorem millidegreesResult_of_framed {b : Bytes} (hframed : Framed b) (hn : b.length = 13) :
    ∃ v, (∃ lo hi m, b[9]? = some lo ∧ b[10]? = some hi ∧ m.toNat = 325 * (lo.toNat + 256 * hi.toNat) ∧
      v = Value.millidegrees m) ∧ (decodeAbsAngle b).map (fun r => Value.millidegrees r.2) = .ok v := by
  refine ⟨_, ⟨byteAt b 9, byteAt b 10, millidegreesOf (rawAt b), getElem?_eq_byteAt (by omega),
    getElem?_eq_byteAt (by omega), ?_, rfl⟩, ?_⟩
  · rw [toNat_millidegreesOf, rawAt, toNat_rawOf]
  · rw [decodeAbsAngle_of_framed hframed (by omega)]
    rfl

/-- Of a framed response of 13 bytes the calibrated decoder returns the position modulo 1024 (R57, R115). -/
theorem calibratedResult_of_framed {b : Bytes} (hframed : Framed b) (hn : b.length = 13) :
    ∃ v, (∃ lo hi c, b[9]? = some lo ∧ b[10]? = some hi ∧ c.toNat = (lo.toNat + 256 * hi.toNat) % 1024 ∧
      v = Value.calibrated c) ∧ (decodeCalAngle b).map Value.calibrated = .ok v := by
  refine ⟨_, ⟨byteAt b 9, byteAt b 10, calibratedOf (rawAt b), getElem?_eq_byteAt (by omega),
    getElem?_eq_byteAt (by omega), ?_, rfl⟩, ?_⟩
  · rw [toNat_calibratedOf, rawAt, toNat_rawOf]
  · rw [decodeCalAngle_of_framed hframed (by omega)]
    rfl

/-- Settles O27: the position is put together from the bytes at 9 and 10, and its product with 325 fits in 25 bits. -/
theorem getAbsoluteAngleReturnsMillidegrees : Obligations.GetAbsoluteAngleReturnsMillidegrees := by
  intro s id hb
  obtain ⟨hends, hrefuses⟩ := exchangeEnds_or_refuses (i := .getAbsoluteAngle id) hb
    (by rw [exec_getAbsoluteAngle, absoluteAngleRequest_eq]; rfl) fun _ => millidegreesResult_of_framed
  exact ⟨fun hid => hrefuses (if_neg (not_not.2 hid)), fun hid => hends _ (if_pos hid)⟩

/-- Settles O28: the position is put together as in O27, and the mask keeps its value modulo 1024. -/
theorem getCalibratedAngleReturnsTenBits : Obligations.GetCalibratedAngleReturnsTenBits := by
  intro s id hb
  obtain ⟨hends, hrefuses⟩ := exchangeEnds_or_refuses (i := .getCalibratedAngle id) hb
    (by rw [exec_getCalibratedAngle, calibratedAngleRequest_eq]; rfl) fun _ => calibratedResult_of_framed
  exact ⟨fun hid => hrefuses (if_neg (not_not.2 hid)), fun hid => hends _ (if_pos hid)⟩

/-- Of a framed response of 9 bytes the status decoder returns the bytes at 7 and 8 (R56, R116). -/
theorem statusResult_of_framed {b : Bytes} (hframed : Framed b) (hn : b.length = 9) :
    ∃ v, StatusResult b v ∧ (decodeStatus b).map Value.status = .ok v := by
  refine ⟨_, ⟨byteAt b 7, byteAt b 8, getElem?_eq_byteAt (by omega), getElem?_eq_byteAt (by omega), rfl⟩, ?_⟩
  rw [decodeStatus_of_framed hframed hn.ge, statusOf, hn]
  rfl

/-- Settles O29: the status is the last two of the 9 bytes. -/
theorem getStatusReturnsBothBytes : Obligations.GetStatusReturnsBothBytes := by
  intro s id hb
  obtain ⟨hends, hrefuses⟩ := exchangeEnds_or_refuses (i := .getStatus id) hb
    (by rw [exec_getStatus, statusRequest_eq]; rfl) fun _ => statusResult_of_framed
  exact ⟨fun hid => hrefuses (if_neg (not_not.2 hid)), fun hid => hends _ (if_pos hid)⟩

/-- An operation does not see the result of the one before it (R130 phase 0). -/
theorem exchange_of_ret (s : State) (r : Option (Result Value)) (request : Result Bytes) (n : Nat)
    (fields : Bytes → Result Value) :
    exchange { s with ret := r } request n fields = exchange s request n fields := rfl

theorem exchangeTwo_error_eq_emit (s : State) (e : Err) (second : Result Bytes) (n : Nat)
    (fields : Bytes → Result Value) : exchangeTwo s (.error e) second n fields = emit s (.error e) := rfl

/-- After its first frame `clear_status` is `get_status` (R138). -/
theorem exec_clearStatus_of_success {s : State} {id : Byte} (hb : s.busy = false) (hid : id ≠ 255)
    (hw : s.th.nextWrite = .success) :
    exec (.clearStatus id) s =
      exec (.getStatus id) { s with th := s.th.wrote (wireFrame id 0x03 [s.params.regStatusError, 2, 0, 0]) } := by
  rw [exec_clearStatus, clearRequest_eq, if_pos hid, acceptedOr, exchangeTwo_of_emit _ _ rfl (emit_of_success hb hw),
    exec_getStatus]
  exact exchange_of_ret { s with th := s.th.wrote _ } (some (.ok .unit)) (statusRequest id) 9 _

/-- Settles O30: after the first frame the operation is `get_status`, whose outcomes are those of O29. -/
theorem clearStatusZeroesThenReturnsTheStatus : Obligations.ClearStatusZeroesThenReturnsTheStatus := by
  intro s id hb
  refine ⟨fun hid => ?_, fun hid => ⟨writeStops_of_firstRequest hb (if_pos hid), fun hw => ?_⟩⟩
  · rw [RefusesArgument, exec_clearStatus, clearRequest_eq, if_neg (not_not.2 hid)]
    exact (exchangeTwo_error_eq_emit s _ _ _ _).trans (emit_of_error hb rfl)
  · have hthen := exec_clearStatus_of_success hb hid hw
    refine ⟨hthen, fun b hw' hd hn hframed haccepts => ?_⟩
    rw [hthen]
    obtain ⟨-, hgets⟩ := getStatusReturnsBothBytes { s with th := s.th.wrote _ } id hb
    obtain ⟨-, hexchange⟩ := hgets hid
    obtain ⟨-, -, hread⟩ := hexchange hw'
    obtain ⟨-, -, hstatus⟩ := hread b hd hn
    exact hstatus hframed haccepts

end Sys2Proof.Machine
end

section
/-! PROOFS. The errors, O32, O33 and O38: the cases of the two argument errors (60_exceptions.md R151, R152) and the codes
of the ERR port (R150). -/

namespace Sys2Proof

theorem valuePorts_err (v : Value) : (valuePorts v).err = 0 := by
  cases v <;> rfl

/-- Settles O38: a value drives ERR with 0, an error with its own code. -/
theorem errPortGivesTheCode : Obligations.ErrPortGivesTheCode := by
  intro r
  cases r with
  | ok v =>
    have herr : (portsOf (.ok v)).err = 0 := valuePorts_err v
    exact ⟨herr ▸ Nat.zero_le 5, herr⟩
  | error e => cases e <;> exact ⟨by decide, rfl⟩

theorem Err.inInvalidArgumentClass_iff (e : Err) : e.inInvalidArgumentClass = true ↔ e.code = 1 ∨ e.code = 2 := by
  cases e <;> decide

end Sys2Proof

namespace Sys2Proof.Machine

/-- Settles O32: each case is the refusing clause of what its operation does. -/
theorem invalidArgumentLeavesNoTrace : Obligations.InvalidArgumentLeavesNoTrace := by
  intro s id x p es count hb
  obtain ⟨-, hencode, -⟩ := encodeRequestFramesOrRefuses s id x p hb
  obtain ⟨-, hled⟩ := setLedWritesItsFrame s id x hb
  obtain ⟨-, hpolicy⟩ := setAcknowledgePolicyWritesItsFrame s id x hb
  obtain ⟨-, hmode⟩ := setControlModeWritesItsFrame s id x hb
  obtain ⟨-, htorque⟩ := setTorqueWritesItsFrame s id x hb
  obtain ⟨habsolute, -⟩ := getAbsoluteAngleReturnsMillidegrees s id hb
  obtain ⟨hcalibrated, -⟩ := getCalibratedAngleReturnsTenBits s id hb
  obtain ⟨hstatus, -⟩ := getStatusReturnsBothBytes s id hb
  obtain ⟨hclear, -⟩ := clearStatusZeroesThenReturnsTheStatus s id hb
  obtain ⟨-, hsjog, -⟩ := marshalSjogLaysOutOrRefuses s es count hb
  obtain ⟨-, hmotion, -⟩ := runMotionWritesItsFrame s es count hb
  exact ⟨hencode, hled, hpolicy, hmode, htorque, fun hid => ⟨habsolute hid, hcalibrated hid, hstatus hid, hclear hid⟩,
    fun h => ⟨hsjog h, hmotion h⟩⟩

/-- Settles O33: each case is the oversize clause of what its operation does, and the class is read off the codes. -/
theorem payloadTooLargeLeavesNoTrace : Obligations.PayloadTooLargeLeavesNoTrace := by
  refine ⟨fun s id x p es count hb => ?_, Err.inInvalidArgumentClass_iff⟩
  obtain ⟨-, -, hencode⟩ := encodeRequestFramesOrRefuses s id x p hb
  have hwrite := marshalRamWriteLaysOutThePayload s x p hb
  obtain ⟨-, -, hsjog⟩ := marshalSjogLaysOutOrRefuses s es count hb
  obtain ⟨-, -, hmotion⟩ := runMotionWritesItsFrame s es count hb
  refine ⟨hencode, fun hp => ?_, fun h62 hn hr => ⟨hsjog h62 hn hr, hmotion h62 hn hr⟩⟩
  rw [if_neg hp.not_ge] at hwrite
  exact hwrite

end Sys2Proof.Machine
end

section
/-! SUPPORT. Which errors the functions of the codec raise (60_exceptions.md R151, R152, R154, R155), said for any set of
errors that holds them. -/

namespace Sys2Proof

/-- Every error the result can be is one of those allowed. -/
def RaisesOnly {α : Type} (allowed : Err → Prop) (r : Result α) : Prop := ∀ e, r = .error e → allowed e

section
variable {α β : Type} {allowed : Err → Prop} {r : Result α}

theorem RaisesOnly.ok (a : α) : RaisesOnly allowed (.ok a : Result α) := by
  intro e h
  cases h

theorem RaisesOnly.error {e : Err} (he : allowed e) : RaisesOnly allowed (.error e : Result α) := by
  intro e' h
  cases h
  exact he

theorem RaisesOnly.ite {c : Prop} [Decidable c] {r r' : Result α} (h : c → RaisesOnly allowed r)
    (h' : ¬c → RaisesOnly allowed r') : RaisesOnly allowed (if c then r else r') := by
  split
  next hc => exact h hc
  next hc => exact h' hc

theorem RaisesOnly.map (f : α → β) (h : RaisesOnly allowed r) : RaisesOnly allowed (r.map f) := by
  cases r with
  | error e => exact .error (h e rfl)
  | ok a => exact .ok (f a)

/-! ## The framer: argument errors -/

theorem acceptedOr_raises (hargument : allowed .invalidArgument) (o : Option Bytes) :
    RaisesOnly allowed (acceptedOr o) := by
  cases o with
  | none => exact .error hargument
  | some f => exact .ok f

theorem encodeRequest_raises {id cmd : Byte} {p : Bytes} (hargument : allowed .invalidArgument)
    (hlarge : allowed .payloadTooLarge) : RaisesOnly allowed (encodeRequest id cmd p) :=
  .ite (fun _ => .error hargument) fun _ => .ite (fun _ => .error hlarge) fun _ => .ok _

/-- The command of a FRAME row is legal, so only its payload can be refused. -/
theorem encodeRequest_code_raises {c : Command} {id : Byte} {p : Bytes} (hlarge : allowed .payloadTooLarge) :
    RaisesOnly allowed (encodeRequest id c.code p) := by
  rw [c.encodeRequest_code]
  exact .ite (fun _ => .ok _) fun _ => .error hlarge

theorem marshalRamWrite_raises {register : Byte} {data : Bytes} (hlarge : allowed .payloadTooLarge) :
    RaisesOnly allowed (marshalRamWrite register data) :=
  .ite (fun _ => .error hlarge) fun _ => .ok _

theorem marshalSjog_raises {es : List MotionCommand} {n : Nat} (hargument : allowed .invalidArgument)
    (hlarge : allowed .payloadTooLarge) : RaisesOnly allowed (marshalSjog es n) := by
  refine .ite (fun _ => .error hargument) fun _ => ?_
  split
  · exact .error hargument
  · exact .ite (fun _ => .error hargument) fun _ => .ite (fun _ => .error hlarge) fun _ => .ok _

theorem motionRequest_raises {es : List MotionCommand} {n : Nat} (hargument : allowed .invalidArgument)
    (hlarge : allowed .payloadTooLarge) : RaisesOnly allowed (motionRequest es n) := by
  unfold motionRequest
  split
  · exact encodeRequest_raises hargument hlarge
  next e h => exact .error (marshalSjog_raises hargument hlarge e h)

/-! ## The decoder: malformed and corrupt -/

section
variable {b : Bytes} {epl : Byte} {verify : Bool} (hmalformed : allowed .malformed)
include hmalformed

theorem decodeHeader_raises : RaisesOnly allowed (decodeHeader b) :=
  .ite (fun _ => .error hmalformed) fun _ => .ok _

theorem verifyChecksum_raises : RaisesOnly allowed (verifyChecksum b) :=
  .ite (fun _ => .error hmalformed) fun _ => .ok _

theorem decodeAbsAngle_raises : RaisesOnly allowed (decodeAbsAngle b) :=
  .ite (fun _ => .error hmalformed) fun _ => .ok _

theorem decodeCalAngle_raises : RaisesOnly allowed (decodeCalAngle b) :=
  .ite (fun _ => .error hmalformed) fun _ => .ok _

theorem decodeStatus_raises : RaisesOnly allowed (decodeStatus b) :=
  .ite (fun _ => .error hmalformed) fun _ => .ok _

/-- Checksums are an error only where they are verified (R110). -/
theorem decodeResponse_raises (hcorrupt : verify = true → allowed .corrupt) :
    RaisesOnly allowed (decodeResponse b epl verify) :=
  .ite (fun _ => .error hmalformed) fun _ => .ite (fun _ => .error hmalformed) fun _ =>
    .ite (fun h => .error (hcorrupt (Bool.and_eq_true_iff.1 h).1)) fun _ => .ok _

theorem decodeReply_raises {fields : Bytes → Result α} {n : Nat} (hcorrupt : verify = true → allowed .corrupt)
    (hfields : RaisesOnly allowed (fields b)) :
    RaisesOnly allowed (decodeReply n verify fields b) := by
  unfold decodeReply
  split
  next e h => exact .error (decodeResponse_raises hmalformed hcorrupt e h)
  · exact hfields

end

/-- A response of the right size and length can only have wrong checksums. -/
theorem decodeResponse_of_form_raises {size id cmd c1 c2 epl : Byte} {p : Bytes} {verify : Bool}
    (hsize : size.toNat = 7 + p.length) (hepl : p.length = epl.toNat) (hcorrupt : verify = true → allowed .corrupt) :
    RaisesOnly allowed (decodeResponse ([0xFF, 0xFF, size, id, cmd, c1, c2] ++ p) epl verify) := by
  obtain ⟨hok, hwrong⟩ := decodeResponse_of_form (id := id) (cmd := cmd) (c1 := c1) (c2 := c2) verify hsize hepl
  by_cases h : verify = true → ChecksumsRight ([0xFF, 0xFF, size, id, cmd, c1, c2] ++ p)
  · rw [hok h]
    exact .ok _
  · rw [hwrong h]
    exact .error (hcorrupt (Classical.not_imp.1 h).1)

end

end Sys2Proof
end

section
/-! SUPPORT. What the parameters alone fix of an instruction: the operation it is, the errors that operation's checks and
decoders raise, against R157's table (60_exceptions.md). -/

namespace Sys2Proof.Machine

/-- The two errors that operands can be refused with (R152), where the instruction's row of R157 has them. -/
def ArgumentError (p : Config.Params) (i : Instr) (e : Err) : Prop :=
  e.inInvalidArgumentClass = true ∧ canEndWith p i e = true

/-- The two errors that a response can be refused with (R154, R155). -/
def ResponseError (p : Config.Params) (e : Err) : Prop := e = .malformed ∨ e = .corrupt ∧ p.verifyDefault = true

/-- The request is all that the instruction sends, and is refused only with errors of the instruction's row. -/
structure TabledRequest (p : Config.Params) (i : Instr) (request : Result Bytes) : Prop where
  sends : ∀ f, request = .ok f → requestBytes p i = some f
  refuses : RaisesOnly (ArgumentError p i) request

theorem tabledRequest_of_eq {p : Config.Params} {i : Instr} {request : Result Bytes}
    (hargument : canEndWith p i .invalidArgument = true) (h : request = acceptedOr (requestBytes p i)) :
    TabledRequest p i request := by
  subst h
  exact ⟨fun f => (acceptedOr_eq_ok_iff _ f).1, acceptedOr_raises ⟨rfl, hargument⟩ _⟩

/-- The shapes of `exec_shape` with what they leave open: the operation is one for all states with these parameters, and its
operand checks and decoders raise errors of the instruction's row only. -/
inductive TabledShape (p : Config.Params) (i : Instr) : Prop where
  | codec (r : Result Value) (kind : isCodec i = true) (errors : RaisesOnly (canEndWith p i · = true) r)
      (meaning : ∀ s : State, s.params = p → exec i s = answer s r)
  | emission (request : Result Bytes) (kind : writesTransport i = true) (noReply : responseLen i = 0)
      (checks : TabledRequest p i request) (meaning : ∀ s : State, s.params = p → exec i s = emit s request)
  | reading (request : Result Bytes) (fields : Bytes → Result Value) (kind : writesTransport i = true)
      (reply : 0 < responseLen i) (checks : TabledRequest p i request)
      (errors : ∀ b, RaisesOnly (ResponseError p) (fields b))
      (meaning : ∀ s : State, s.params = p → exec i s = exchange s request (responseLen i) fields)
  | clearing (id : Byte) (fields : Bytes → Result Value) (name : i = .clearStatus id)
      (refuses : RaisesOnly (ArgumentError p i) (clearRequest p id)) (errors : ∀ b, RaisesOnly (ResponseError p) (fields b))
      (meaning : ∀ s : State, s.params = p →
        exec i s = exchangeTwo s (clearRequest p id) (statusRequest id) (responseLen i) fields)

section
variable (id cmd c1 c2 b7 b8 lo hi se sd : Byte) (s : State)

/-- The STAT layout is long enough for the status decoder, so only `decode_response` can refuse it (R56). -/
theorem exec_statResponse_eq_answer :
    exec (.statResponse id cmd c1 c2 se sd) s =
      answer s ((decodeResponse (statResponseBytes id cmd c1 c2 se sd) 2 s.params.verifyDefault).map
        (.statResponse · ⟨se, sd⟩)) := by
  refine congrArg (answer s) ?_
  cases decodeResponse (statResponseBytes id cmd c1 c2 se sd) 2 s.params.verifyDefault <;> rfl

/-- The layout of a position response is long enough for every field decoder, so only `decode_response` can refuse it
(R57). -/
theorem exec_ramReadResponse2_eq_answer :
    exec (.ramReadResponse2 id cmd c1 c2 b7 b8 lo hi se sd) s =
      answer s ((decodeResponse (ramReadResponseBytes id cmd c1 c2 b7 b8 lo hi se sd) 6 s.params.verifyDefault).map
        (.ramReadResponse · (rawOf lo hi) (millidegreesOf (rawOf lo hi)) (calibratedOf (rawOf lo hi)) ⟨se, sd⟩)) := by
  refine congrArg (answer s) ?_
  cases decodeResponse (ramReadResponseBytes id cmd c1 c2 b7 b8 lo hi se sd) 6 s.params.verifyDefault <;> rfl

end

section
variable {p : Config.Params} {i : Instr}

/-- A FRAME row (R52, R90). -/
theorem TabledShape.frame (c : Command) (id : Byte) (payload : Bytes) (kind : isCodec i = true)
    (hlarge : canEndWith p i .payloadTooLarge = true) (hx : ∀ s, exec i s = frameCommand c id payload s) :
    TabledShape p i :=
  .codec _ kind (.map _ (encodeRequest_code_raises hlarge)) fun s _ => hx s

/-- The two rows that send the frame of `run_motion` (R139). -/
theorem TabledShape.motion (es : List MotionCommand) (n : Nat) (kind : writesTransport i = true)
    (noReply : responseLen i = 0) (hframe : requestBytes p i = motionFrame es n)
    (hargument : canEndWith p i .invalidArgument = true) (hlarge : canEndWith p i .payloadTooLarge = true)
    (hx : ∀ s, exec i s = emit s (motionRequest es n)) : TabledShape p i :=
  .emission _ kind noReply
    ⟨fun f hf => hframe.trans ((motionRequest_eq_ok_iff es n f).1 hf), motionRequest_raises ⟨rfl, hargument⟩ ⟨rfl, hlarge⟩⟩
    fun s _ => hx s

end

theorem exec_tabledShape (p : Config.Params) (i : Instr) : TabledShape p i := by
  cases i with
  | eepWrite id b => exact .frame .eepWrite id b rfl rfl fun _ => rfl
  | eepRead id b => exact .frame .eepRead id b rfl rfl fun _ => rfl
  | ramWrite id b => exact .frame .ramWrite id b rfl rfl fun _ => rfl
  | ramRead id b => exact .frame .ramRead id b rfl rfl fun _ => rfl
  | iJog id b => exact .frame .iJog id b rfl rfl fun _ => rfl
  | sJog id b => exact .frame .sJog id b rfl rfl fun _ => rfl
  | stat id b => exact .frame .stat id b rfl rfl fun _ => rfl
  | rollback id b => exact .frame .rollback id b rfl rfl fun _ => rfl
  | reboot id b => exact .frame .reboot id b rfl rfl fun _ => rfl
  | ramWriteSetLed id c | setLed id c =>
    exact .emission _ rfl rfl (tabledRequest_of_eq rfl (ledRequest_eq id c)) fun _ _ => rfl
  | ramWriteSetAcknowledgePolicy id v | setAcknowledgePolicy id v =>
    exact .emission _ rfl rfl (tabledRequest_of_eq rfl (policyRequest_eq p id v)) fun _ hs => hs ▸ rfl
  | ramWriteSetControlMode id m | setControlMode id m =>
    exact .emission _ rfl rfl (tabledRequest_of_eq rfl (controlModeRequest_eq p id m)) fun _ hs => hs ▸ rfl
  | ramWriteSetTorque id m | setTorque id m =>
    exact .emission _ rfl rfl (tabledRequest_of_eq rfl (torqueRequest_eq p id m)) fun _ hs => hs ▸ rfl
  | ramReadGetAbsoluteAngle id =>
    exact .emission _ rfl rfl (tabledRequest_of_eq rfl (absoluteAngleRequest_eq id)) fun _ _ => rfl
  | ramReadGetCalibratedAngle id =>
    exact .emission _ rfl rfl (tabledRequest_of_eq rfl (calibratedAngleRequest_eq id)) fun _ _ => rfl
  | statGetStatus id => exact .emission _ rfl rfl (tabledRequest_of_eq rfl (statusRequest_eq id)) fun _ _ => rfl
  | ramWriteClearStatus id =>
    exact .emission _ rfl rfl (tabledRequest_of_eq rfl (clearRequest_eq p id)) fun _ hs => hs ▸ rfl
  | sJogRunMotion t es =>
    exact .motion (es.map fun e => e.withTime t) es.length rfl rfl rfl rfl rfl fun _ => rfl
  | runMotion es n => exact .motion es n rfl rfl rfl rfl rfl fun _ => rfl
  | getAbsoluteAngle id =>
    exact .reading _ _ rfl (Nat.succ_pos _) (tabledRequest_of_eq rfl (absoluteAngleRequest_eq id))
      (fun _ => .map _ (decodeAbsAngle_raises (.inl rfl))) fun s _ => exec_getAbsoluteAngle id s
  | getCalibratedAngle id =>
    exact .reading _ _ rfl (Nat.succ_pos _) (tabledRequest_of_eq rfl (calibratedAngleRequest_eq id))
      (fun _ => .map _ (decodeCalAngle_raises (.inl rfl))) fun s _ => exec_getCalibratedAngle id s
  | getStatus id =>
    exact .reading _ _ rfl (Nat.succ_pos _) (tabledRequest_of_eq rfl (statusRequest_eq id))
      (fun _ => .map _ (decodeStatus_raises (.inl rfl))) fun s _ => exec_getStatus id s
  | clearStatus id =>
    exact .clearing id _ rfl (clearRequest_eq p id ▸ acceptedOr_raises ⟨rfl, rfl⟩ _)
      (fun _ => .map _ (decodeStatus_raises (.inl rfl))) fun s hs => hs ▸ exec_clearStatus id s
  | statResponse id cmd c1 c2 se sd =>
    exact .codec _ rfl
      (.map _ (decodeResponse_of_form_raises (size := 9) (p := [se, sd]) (verify := p.verifyDefault) rfl rfl fun h => h))
      fun s hs => hs ▸ exec_statResponse_eq_answer id cmd c1 c2 se sd s
  | ramReadResponse2 id cmd c1 c2 b7 b8 lo hi se sd =>
    exact .codec _ rfl
      (.map _ (decodeResponse_of_form_raises (size := 13) (p := [b7, b8, lo, hi, se, sd]) (verify := p.verifyDefault)
        rfl rfl fun h => h))
      fun s hs => hs ▸ exec_ramReadResponse2_eq_answer id cmd c1 c2 b7 b8 lo hi se sd s
  | csum size id cmd b => exact .codec _ rfl (.ok _) fun s _ => exec_csum size id cmd b s
  | encodeRequest id cmd b =>
    exact .codec _ rfl (.map _ (encodeRequest_raises rfl rfl)) fun s _ => exec_encodeRequest id cmd b s
  | marshalRamWrite register data =>
    exact .codec _ rfl (.map _ (marshalRamWrite_raises rfl)) fun s _ => exec_marshalRamWrite register data s
  | marshalRamRead register length => exact .codec _ rfl (.ok _) fun s _ => exec_marshalRamRead register length s
  | marshalSjog es n =>
    exact .codec _ rfl (.map _ (marshalSjog_raises rfl rfl)) fun s _ => exec_marshalSjog es n s
  | decodeHeader b => exact .codec _ rfl (.map _ (decodeHeader_raises rfl)) fun s _ => exec_decodeHeader b s
  | decodeResponse b epl verify =>
    exact .codec _ rfl (.map _ (decodeResponse_raises rfl fun h => h)) fun s _ => exec_decodeResponse b s epl verify
  | verifyChecksum b => exact .codec _ rfl (.map _ (verifyChecksum_raises rfl)) fun s _ => exec_verifyChecksum b s
  | decodeAbsAngle b => exact .codec _ rfl (.map _ (decodeAbsAngle_raises rfl)) fun s _ => exec_decodeAbsAngle b s
  | decodeCalAngle b => exact .codec _ rfl (.map _ (decodeCalAngle_raises rfl)) fun s _ => exec_decodeCalAngle b s
  | decodeStatus b => exact .codec _ rfl (.map _ (decodeStatus_raises rfl)) fun s _ => exec_decodeStatus b s
  | statusFlags se sd => exact .codec _ rfl (.ok _) fun s _ => exec_statusFlags se sd s

end Sys2Proof.Machine
end

section
/-! PROOFS. The errors, O42: an operation issued in an idle state returns or blocks (60_exceptions.md R150, R163,
70_reset_and_hazards.md R189). -/

namespace Sys2Proof.Machine

section
variable {s t u : State} {i : Instr} {f : Bytes}

/-- A result is there exactly where BUSY is 0 (R130 phases 0 and 6, R189). -/
def HasResultIffIdle (t : State) : Prop := t.ret.isSome = !t.busy

theorem HasResultIffIdle.busy_eq_false {r : Result Value} (h : HasResultIffIdle t) (hret : t.ret = some r) :
    t.busy = false := by
  rwa [HasResultIffIdle, hret, Option.isSome_some, eq_comm, Bool.not_eq_true'] at h

theorem HasResultIffIdle.send {k : State → State} (h : HasResultIffIdle u)
    (hk : HasResultIffIdle (k (u.withTh (u.th.afterWrite f)))) : HasResultIffIdle (u.send f k) := by
  obtain (⟨-, ht⟩ | ⟨-, ht⟩) | ⟨-, ht⟩ := State.send_cases u f k
  · exact ht ▸ rfl
  · exact ht ▸ h
  · exact ht ▸ hk

theorem HasResultIffIdle.awaitReply {n : Nat} {fields : Bytes → Result Value} (h : HasResultIffIdle u) :
    HasResultIffIdle (u.awaitReply n fields) := by
  obtain ⟨-, ht⟩ | ⟨-, ht⟩ | ⟨-, ht⟩ := State.awaitReply_cases u n fields
  · exact ht ▸ rfl
  · exact ht ▸ rfl
  · exact ht ▸ h

theorem HasResultIffIdle.require {α : Type} {r : Result α} {k : α → State} (hk : ∀ a, HasResultIffIdle (k a)) :
    HasResultIffIdle (u.require r k) := by
  cases r with
  | error e => rfl
  | ok a => exact hk a

theorem exec_hasResultIffIdle (h : exec i s = .next t) : HasResultIffIdle t := by
  have hstart : HasResultIffIdle s.start := rfl
  cases exec_shape s i with
  | codec r _ _ hx =>
    obtain ⟨-, rfl⟩ := answer_next _ _ _ (hx ▸ h)
    rfl
  | emission request _ _ _ hx =>
    obtain ⟨-, rfl⟩ := issue_next _ _ _ (hx ▸ h)
    exact .require fun f => hstart.send rfl
  | reading request fields _ _ _ hx =>
    obtain ⟨-, rfl⟩ := issue_next _ _ _ (hx ▸ h)
    exact .require fun f => hstart.send (.awaitReply rfl)
  | clearing id fields _ _ hx =>
    obtain ⟨-, rfl⟩ := issue_next _ _ _ (hx ▸ h)
    exact .require fun f => hstart.send (.require fun g => .send rfl (.awaitReply rfl))

theorem Transport.exists_never_of_writeEnding {th : Transport} (h : th.writeEnding = .never) :
    ∃ k, th.nextWrite = .never k := by
  unfold Transport.writeEnding at h
  split at h
  · cases h
  · cases h
  next k hk => exact ⟨k, hk⟩

/-- Only an instruction that writes stays unfinished, at a read or, where it reads nothing, at its one write. -/
theorem writes_of_exec_busy (h : exec i s = .next t) (hbusy : t.busy = true) :
    writesTransport i = true ∧ (0 < responseLen i ∨ ∃ k, s.th.nextWrite = .never k) := by
  cases exec_tabledShape s.params i with
  | codec r _ _ hx =>
    obtain ⟨-, rfl⟩ := answer_next _ _ _ (hx s rfl ▸ h)
    cases hbusy
  | emission request kind _ _ hx =>
    obtain ⟨-, ⟨e, -, rfl⟩ | ⟨f, -, ⟨-, rfl⟩ | ⟨hnever, -⟩⟩ | ⟨f, -, -, rfl⟩⟩ := emit_next _ _ _ (hx s rfl ▸ h)
    · cases hbusy
    · cases hbusy
    · exact ⟨kind, .inr (Transport.exists_never_of_writeEnding hnever)⟩
    · cases hbusy
  | reading _ _ kind reply _ _ _ => exact ⟨kind, .inl reply⟩
  | clearing id _ name _ _ _ => exact name ▸ ⟨rfl, .inl (Nat.succ_pos _)⟩

end

/-- Settles O42: an idle instruction is issued, and BUSY tells whether it has returned or blocked. -/
theorem everyOperationRunsWhenIdle : Obligations.EveryOperationRunsWhenIdle := by
  intro s i hb
  obtain ⟨body, hissue⟩ := exec_eq_issue s i
  have h : exec i s = .next (body s) := hissue.trans (issue_of_idle s body hb)
  have hresult : (body s).ret.isSome = !(body s).busy := exec_hasResultIffIdle h
  refine ⟨_, h, ?_⟩
  cases hbusy : (body s).busy with
  | false => exact .inl ⟨rfl, by rw [hresult, hbusy, Bool.not_false]⟩
  | true =>
    rw [hbusy, Bool.not_true, Option.isSome_eq_false_iff, Option.isNone_iff_eq_none] at hresult
    exact .inr ⟨rfl, hresult, writes_of_exec_busy h hbusy⟩

end Sys2Proof.Machine
end

section
/-! PROOFS. The errors, O35 and O37: the states in which an instruction can end with an error, phase by phase
(43_session.md R130), read against R157's and R162's tables. -/

namespace Sys2Proof.Machine

section
variable {s t u : State} {i : Instr} {e : Err} {f g sent : Bytes}

theorem not_writesTransport_of_isCodec (h : isCodec i = true) : ¬writesTransport i = true := by
  rwa [isCodec, Bool.not_eq_true', ← Bool.not_eq_true] at h

theorem canEndWith_transportError (p : Config.Params) (i : Instr) : canEndWith p i .transportError = writesTransport i := by
  cases i <;> rfl

/-- An operation that reads a response can end with both errors of a response, `Corrupt` where verification is on. -/
theorem canEndWith_of_responseError (p : Config.Params) (hreply : 0 < responseLen i) (he : ResponseError p e) :
    canEndWith p i e = true := by
  cases i with
  | getAbsoluteAngle id | getCalibratedAngle id | getStatus id | clearStatus id =>
    obtain rfl | ⟨rfl, hverify⟩ := he
    · rfl
    · exact hverify
  | _ => exact absurd hreply (Nat.lt_irrefl 0)

/-- Between two phases of an operation that started in `s`: `sent` has gone out, nothing is read, there is no result. -/
structure HasSent (s : State) (sent : Bytes) (t : State) : Prop where
  ret : t.ret = none
  params : t.params = s.params
  tx : t.th.tx = s.th.tx ++ sent
  rx : t.th.rx = s.th.rx

theorem HasSent.start (s : State) : HasSent s [] s.start := ⟨rfl, rfl, (List.append_nil _).symm, rfl⟩

theorem HasSent.write (h : HasSent s sent t) (f : Bytes) (hw : t.th.writeEnding = .returns) :
    HasSent s (sent ++ f) (t.withTh (t.th.afterWrite f)) := by
  refine ⟨h.ret, h.params, ?_, h.rx⟩
  rw [State.withTh_th, Transport.afterWrite_tx, Transport.bytesSent_of_returns _ _ hw, h.tx, List.append_assoc]

/-- Where an instruction started in `s` ends with an error, one constructor per row of R162's table. -/
inductive EndsWithError (s : State) (i : Instr) (e : Err) (t : State) : Prop where
  | answered (kind : isCodec i = true) (tabled : canEndWith s.params i e = true) (th : t.th = s.th)
  | refused (kind : writesTransport i = true) (argument : ArgumentError s.params i e) (th : t.th = s.th)
  | unwritten (f g : Bytes) (kind : writesTransport i = true) (name : e = .transportError)
      (sends : requestBytes s.params i = some f) (part : g <+: f) (tx : t.th.tx = s.th.tx ++ g) (rx : t.th.rx = s.th.rx)
  | unread (f : Bytes) (k : Nat) (kind : writesTransport i = true) (name : e = .transportError)
      (sends : requestBytes s.params i = some f) (tx : t.th.tx = s.th.tx ++ f) (part : k ≤ responseLen i)
      (rx : t.th.rx = s.th.rx.drop k)
  | unaccepted (f : Bytes) (kind : writesTransport i = true) (reply : 0 < responseLen i)
      (response : ResponseError s.params e) (sends : requestBytes s.params i = some f) (tx : t.th.tx = s.th.tx ++ f)
      (arrived : responseLen i ≤ s.th.rx.length) (rx : t.th.rx = s.th.rx.drop (responseLen i))

/-- Operands are refused before any transport call. -/
theorem endsWithError_of_refuses {request : Result Bytes} {e' : Err}
    (refuses : RaisesOnly (ArgumentError s.params i) request) (kind : writesTransport i = true) (he : request = .error e')
    (hret : (s.start.finish (.error e')).ret = some (.error e)) : EndsWithError s i e (s.start.finish (.error e')) := by
  cases hret
  exact .refused kind (refuses _ he) rfl

/-- A write that fails has put the first bytes of its frame on TX, after what has gone out before it. -/
theorem HasSent.endsWithError_of_stops (h : HasSent s sent u) (kind : writesTransport i = true)
    (sends : requestBytes s.params i = some f) (hpart : sent ++ g <+: f) (hstops : SendStops u t g)
    (hret : t.ret = some (.error e)) : EndsWithError s i e t := by
  obtain ⟨-, rfl⟩ | ⟨-, rfl⟩ := hstops
  · cases hret
    refine .unwritten f (sent ++ u.th.bytesSent g) kind rfl sends ?_ ?_ h.rx
    · exact ((List.prefix_append_right_inj sent).2 (u.th.bytesSent_prefix g)).trans hpart
    · rw [State.finish_th, State.withTh_th, Transport.afterWrite_tx, h.tx, List.append_assoc]
  · rw [State.withTh_ret, h.ret] at hret
    cases hret

/-- A read that fails has taken at most the response; a response that is not accepted has left RX whole. -/
theorem HasSent.endsWithError_of_awaitReply {fields : Bytes → Result Value} (h : HasSent s f u)
    (kind : writesTransport i = true) (hreply : 0 < responseLen i) (sends : requestBytes s.params i = some f)
    (errors : ∀ b, RaisesOnly (ResponseError s.params) (fields b))
    (hret : (u.awaitReply (responseLen i) fields).ret = some (.error e)) :
    EndsWithError s i e (u.awaitReply (responseLen i) fields) := by
  obtain ⟨hr, ht⟩ | ⟨hr, ht⟩ | ⟨-, ht⟩ := State.awaitReply_cases u (responseLen i) fields
  · have hdecoded : decodeReply (responseLen i) u.params.verifyDefault fields (u.th.rx.take (responseLen i)) = .error e := by
      rw [ht] at hret
      exact Option.some.inj hret
    rw [h.params] at hdecoded
    rw [ht]
    refine .unaccepted f kind hreply ?_ sends h.tx (h.rx ▸ Transport.length_of_returns _ _ hr) ?_
    · exact decodeReply_raises (.inl rfl) (fun hverify => .inr ⟨rfl, hverify⟩) (errors _) e hdecoded
    · rw [State.finish_th, State.withTh_th, Transport.afterRead_rx, Transport.bytesTaken_of_returns _ _ hr, h.rx]
  · rw [ht] at hret ⊢
    cases hret
    exact .unread f _ kind rfl sends h.tx (Transport.bytesTaken_of_fails _ _ hr) (h.rx ▸ rfl)
  · rw [ht, State.withTh_ret, h.ret] at hret
    cases hret

/-- The two requests of `clear_status` accept the same operand. -/
theorem requests_of_clearRequest {p : Config.Params} {id : Byte} (h : clearRequest p id = .ok f) :
    statusRequest id = .ok (wireFrame id 0x07 []) ∧
      requestBytes p (.clearStatus id) = some (f ++ wireFrame id 0x07 []) := by
  have hfirst : firstRequest p (.clearStatus id) = some f := (acceptedOr_eq_ok_iff _ f).1 (clearRequest_eq p id ▸ h)
  obtain ⟨hid, -⟩ := Option.ite_none_right_eq_some.1 hfirst
  exact ⟨by rw [statusRequest_eq, if_pos hid]; rfl, by rw [requestBytes, hfirst, Option.map_some]⟩

theorem exec_endsWithError (h : exec i s = .next t) (hret : t.ret = some (.error e)) : EndsWithError s i e t := by
  cases exec_tabledShape s.params i with
  | codec r kind errors hx =>
    obtain ⟨-, rfl⟩ := answer_next _ _ _ (hx s rfl ▸ h)
    exact .answered kind (errors e (Option.some.inj hret)) rfl
  | emission request kind _ checks hx =>
    obtain ⟨-, ⟨e', he, rfl⟩ | ⟨f, hf, hstops⟩ | ⟨f, -, -, rfl⟩⟩ := emit_next _ _ _ (hx s rfl ▸ h)
    · exact endsWithError_of_refuses checks.refuses kind he hret
    · exact (HasSent.start s).endsWithError_of_stops kind (checks.sends f hf) (List.prefix_refl f) hstops hret
    · cases hret
  | reading request fields kind reply checks errors hx =>
    obtain ⟨-, ⟨e', he, rfl⟩ | ⟨f, hf, hstops⟩ | ⟨f, hf, hw, rfl⟩⟩ := exchange_next _ _ _ _ _ (hx s rfl ▸ h)
    · exact endsWithError_of_refuses checks.refuses kind he hret
    · exact (HasSent.start s).endsWithError_of_stops kind (checks.sends f hf) (List.prefix_refl f) hstops hret
    · exact ((HasSent.start s).write f hw).endsWithError_of_awaitReply kind reply (checks.sends f hf) errors hret
  | clearing id fields hi refuses errors hx =>
    subst hi
    obtain ⟨-, ⟨e', he, rfl⟩ | ⟨f, hf, hstops⟩ | ⟨f, e', hf, -, he, rfl⟩ | ⟨f, g, hf, hw, hg, hstops⟩ |
      ⟨f, g, hf, hw, hg, hw', rfl⟩⟩ := exchangeTwo_next _ _ _ _ _ _ (hx s rfl ▸ h)
    · exact endsWithError_of_refuses refuses rfl he hret
    · obtain ⟨-, sends⟩ := requests_of_clearRequest hf
      exact (HasSent.start s).endsWithError_of_stops rfl sends (List.prefix_append f _) hstops hret
    · obtain ⟨hstatus, -⟩ := requests_of_clearRequest hf
      cases hstatus.symm.trans he
    · obtain ⟨hstatus, sends⟩ := requests_of_clearRequest hf
      cases hstatus.symm.trans hg
      exact ((HasSent.start s).write f hw).endsWithError_of_stops rfl sends (List.prefix_refl _) hstops hret
    · obtain ⟨hstatus, sends⟩ := requests_of_clearRequest hf
      cases hstatus.symm.trans hg
      exact (((HasSent.start s).write f hw).write _ hw').endsWithError_of_awaitReply rfl (Nat.succ_pos _) sends errors hret

end

/-- Settles O37: a codec answer and a refusal carry errors of the row; the other ends are those of every write or read. -/
theorem onlyTabledErrorsOccur : Obligations.OnlyTabledErrorsOccur := by
  intro s t i e h hret
  cases exec_endsWithError h hret with
  | answered _ tabled _ => exact tabled
  | refused _ argument _ => exact argument.2
  | unwritten f g kind name _ _ _ _ => rw [name, canEndWith_transportError, kind]
  | unread f k kind name _ _ _ _ => rw [name, canEndWith_transportError, kind]
  | unaccepted f _ reply response _ _ _ _ => exact canEndWith_of_responseError s.params reply response

/-- Settles O35: each end of an instruction is one of the rows of R162, and the other rows are of other errors. -/
theorem errorsLeaveTheTabledEffect : Obligations.ErrorsLeaveTheTabledEffect := by
  intro s t i e h hret
  refine ⟨(exec_hasResultIffIdle h).busy_eq_false hret, ?_⟩
  cases exec_endsWithError h hret with
  | answered kind tabled th =>
    refine ⟨fun _ => th, fun _ => th, ?_, fun writes => absurd writes (not_writesTransport_of_isCodec kind)⟩
    rintro rfl
    exact absurd (canEndWith_transportError s.params i ▸ tabled) (not_writesTransport_of_isCodec kind)
  | refused kind argument th =>
    obtain ⟨hclass, -⟩ := argument
    refine ⟨fun _ => th, fun _ => th, ?_, fun _ => ?_⟩
    · rintro rfl
      cases hclass
    · rintro (rfl | rfl) <;> cases hclass
  | unwritten f g kind name sends part tx rx =>
    subst name
    exact ⟨fun codec => absurd kind (not_writesTransport_of_isCodec codec), nofun,
      fun _ => ⟨f, sends, .inl ⟨g, part, tx, rx⟩⟩, fun _ => nofun⟩
  | unread f k kind name sends tx part rx =>
    subst name
    exact ⟨fun codec => absurd kind (not_writesTransport_of_isCodec codec), nofun,
      fun _ => ⟨f, sends, .inr ⟨k, tx, part, rx⟩⟩, fun _ => nofun⟩
  | unaccepted f kind _ response sends tx arrived rx =>
    have hname : e = .malformed ∨ e = .corrupt := response.imp_right And.left
    refine ⟨fun codec => absurd kind (not_writesTransport_of_isCodec codec), ?_, ?_,
      fun _ _ => ⟨f, sends, tx, arrived, rx⟩⟩
    · obtain rfl | rfl := hname <;> nofun
    · obtain rfl | rfl := hname <;> nofun

end Sys2Proof.Machine
end

section
/-! PROOFS. The errors, O43: two runs of one instruction (60_exceptions.md R163, 10_state.md R13). Each phase of an operation
keeps two states in agreement on all that the next one sees. -/

namespace Sys2Proof.Machine

/-- Two states that an operation cannot tell apart, and that a caller cannot: they differ in script, index and ghost bit at
most. -/
structure Agrees (u u' : State) : Prop where
  th : u'.th = u.th
  busy : u'.busy = u.busy
  ret : u'.ret = u.ret
  params : u'.params = u.params

section
variable {u u' : State}

theorem Agrees.start (hth : u'.th = u.th) (hparams : u'.params = u.params) : Agrees u.start u'.start :=
  ⟨hth, rfl, rfl, hparams⟩

theorem Agrees.finish (h : Agrees u u') (r : Result Value) : Agrees (u.finish r) (u'.finish r) :=
  ⟨h.th, rfl, rfl, h.params⟩

theorem Agrees.withTh (h : Agrees u u') (th : Transport) : Agrees (u.withTh th) (u'.withTh th) :=
  ⟨rfl, h.busy, h.ret, h.params⟩

theorem Agrees.require {α : Type} {r : Result α} {k k' : α → State} (h : Agrees u u') (hk : ∀ a, Agrees (k a) (k' a)) :
    Agrees (u.require r k) (u'.require r k') := by
  cases r with
  | error e => exact h.finish _
  | ok a => exact hk a

theorem Agrees.send {f : Bytes} {k k' : State → State} (h : Agrees u u')
    (hk : ∀ {v v'}, Agrees v v' → Agrees (k v) (k' v')) : Agrees (u.send f k) (u'.send f k') := by
  unfold State.send
  rw [h.th]
  split
  · exact hk (h.withTh _)
  · exact (h.withTh _).finish _
  · exact h.withTh _

theorem Agrees.awaitReply {n : Nat} {fields : Bytes → Result Value} (h : Agrees u u') :
    Agrees (u.awaitReply n fields) (u'.awaitReply n fields) := by
  unfold State.awaitReply State.receive
  rw [h.th]
  split
  · simp only [State.withTh_params, h.params]
    exact (h.withTh _).finish _
  · exact (h.withTh _).finish _
  · exact h.withTh _

end

/-- In every state with the parameters `p` the instruction is one operation, which sees the transport alone. -/
theorem exec_agrees (p : Config.Params) (i : Instr) :
    ∃ body : State → State, (∀ s, s.params = p → exec i s = issue s body) ∧
      ∀ s s', s'.th = s.th → s'.params = s.params → Agrees (body s) (body s') := by
  cases exec_tabledShape p i with
  | codec r _ _ hx => exact ⟨_, hx, fun s s' hth hp => ⟨hth, rfl, rfl, hp⟩⟩
  | emission request _ _ _ hx =>
    refine ⟨_, hx, fun s s' hth hp => ?_⟩
    have hstart := Agrees.start hth hp
    exact hstart.require fun f => hstart.send fun h => h.finish _
  | reading request fields _ _ _ _ hx =>
    refine ⟨_, hx, fun s s' hth hp => ?_⟩
    have hstart := Agrees.start hth hp
    exact hstart.require fun f => hstart.send fun h => h.awaitReply
  | clearing id fields _ _ _ hx =>
    refine ⟨_, hx, fun s s' hth hp => ?_⟩
    have hstart := Agrees.start hth hp
    exact hstart.require fun f => hstart.send fun h => h.require fun g => h.send fun h => h.awaitReply

/-- Settles O43: the two states issue the same operation, whose phases keep them in agreement. -/
theorem earlierResultsHaveNoEffect : Obligations.EarlierResultsHaveNoEffect := by
  intro s s' t i hbusy hth hparams h
  obtain ⟨body, hx, hagrees⟩ := exec_agrees s.params i
  obtain ⟨hb, rfl⟩ := issue_next _ _ _ (hx s rfl ▸ h)
  have ha := hagrees s s' hth.symm hparams.symm
  exact ⟨_, (hx s' hparams.symm).trans (issue_of_idle s' body (hbusy ▸ hb)), ha.th, ha.busy, ha.ret⟩

end Sys2Proof.Machine
end

section
/-! PROOFS. Hazards, O36 and O41: a read that never gets its bytes, and BUSY while it waits (70_reset_and_hazards.md R186,
R189). What each operation that reads leaves then is already among the ends of its exchange (O27 to O30). -/

namespace Sys2Proof.Machine

section
variable {s : State} {i : Instr} {f : Bytes} {n : Nat}

/-- An exchange whose read blocks stays where that read left it: its request is on TX, and RX has lost bytes at the front
only. -/
theorem ExchangeEnds.blocks {result : Bytes → Value → Prop} (h : ExchangeEnds s i f n result)
    (hw : s.th.nextWrite = .success)
    (hr : s.th.nextRead.ending = .never ∨ (s.th.nextRead.ending = .returns ∧ s.th.rx.length < n)) :
    ∃ th, exec i s = .next (s.start.withTh th) ∧ th.tx = s.th.tx ++ f ∧ th.rx <:+ s.th.rx := by
  obtain ⟨-, hread⟩ := h
  obtain ⟨-, hblocks, -⟩ := hread hw
  obtain ⟨k, hx⟩ := hblocks hr
  exact ⟨_, hx, rfl, List.drop_suffix k _⟩

/-- Each of the four operations that read stays at its read with everything it sends on TX; `clear_status` is at the read of
`get_status`, one frame later (R138). -/
theorem exec_of_read_blocks (hb : s.busy = false) (hreply : 0 < responseLen i) (hf : requestBytes s.params i = some f)
    (hw : s.th.nextWrite = .success) (hw' : ∀ id, i = .clearStatus id → (s.th.wrote []).nextWrite = .success)
    (hr : s.th.nextRead.ending = .never ∨ (s.th.nextRead.ending = .returns ∧ s.th.rx.length < responseLen i)) :
    ∃ th, exec i s = .next (s.start.withTh th) ∧ th.tx = s.th.tx ++ f ∧ th.rx <:+ s.th.rx := by
  cases i with
  | getAbsoluteAngle id =>
    obtain ⟨hid, hframe⟩ := Option.ite_none_right_eq_some.1 hf
    obtain ⟨-, hends⟩ := getAbsoluteAngleReturnsMillidegrees s id hb
    exact Option.some.inj hframe ▸ (hends hid).blocks hw hr
  | getCalibratedAngle id =>
    obtain ⟨hid, hframe⟩ := Option.ite_none_right_eq_some.1 hf
    obtain ⟨-, hends⟩ := getCalibratedAngleReturnsTenBits s id hb
    exact Option.some.inj hframe ▸ (hends hid).blocks hw hr
  | getStatus id =>
    obtain ⟨hid, hframe⟩ := Option.ite_none_right_eq_some.1 hf
    obtain ⟨-, hends⟩ := getStatusReturnsBothBytes s id hb
    exact Option.some.inj hframe ▸ (hends hid).blocks hw hr
  | clearStatus id =>
    obtain ⟨first, hfirst, rfl⟩ := Option.map_eq_some_iff.1 hf
    obtain ⟨hid, hframe⟩ := Option.ite_none_right_eq_some.1 hfirst
    have hthen := exec_clearStatus_of_success hb hid hw
    rw [Option.some.inj hframe] at hthen
    obtain ⟨-, hends⟩ := getStatusReturnsBothBytes { s with th := s.th.wrote first } id hb
    obtain ⟨th, hx, htx, hrx⟩ := (hends hid).blocks (hw' id rfl) hr
    exact ⟨th, hthen.trans hx, htx.trans (List.append_assoc _ _ _), hrx⟩
  | _ => exact absurd hreply (Nat.lt_irrefl 0)

end

/-- Settles O36: the operation stays at its read, and its script entry is refused from then on. -/
theorem blockedReadHangsForEver : Obligations.BlockedReadHangsForEver := by
  intro s e i f hb hreply hf he hd hw hw' hr
  obtain ⟨th, hx, htx, hrx⟩ := exec_of_read_blocks hb hreply hf hw hw' hr
  obtain ⟨hstep, hnext⟩ := step_of_unfinished he hd hx
  exact ⟨_, hstep, rfl, rfl, rfl, htx, hrx, hnext⟩

/-- Settles O41: every instruction is issued as an operation, and `issue` refuses while BUSY is 1. -/
theorem busyRefusesEveryOperation : Obligations.BusyRefusesEveryOperation :=
  fun _ => exec_of_busy

end Sys2Proof.Machine
end
